-- ==== Sys2Proof/Word.lean ====
section
/-! DEFINITION. The word types of the part (00_scope.md, Conventions): bytes, 16-bit fields, 32-bit words and 64-bit addresses. -/

namespace Sys2Proof

/-- One byte of a layout of 08_exchange_area_and_orders.md, Section 8.10. -/
abbrev Byte := BitVec 8

/-- A 16-bit field. -/
abbrev Half := BitVec 16

/-- A 32-bit value that wraps: ticks, cycle numbers, sequence numbers, registers (00_scope.md, Numbers). -/
abbrev Word := BitVec 32

/-- A bus address: the 64-bit base of the exchange area plus an offset (R148). -/
abbrev Addr := BitVec 64

/-- A channel number. The 0840 has only the numbers below 8 (R21). -/
abbrev ChannelNo := Fin 16

/-- A window number (R12). -/
abbrev WindowNo := Fin 8

/-- An order cell number (R158). -/
abbrev CellNo := Fin 8

end Sys2Proof
end

