-- ==== Sys2Proof/Syntax.lean ====
section
/-! DEFINITION. The commands of the part: one constructor for each row of spec/opcode_table.json, in the table's order of families. -/

namespace Sys2Proof

/-- The seven filtered inputs (R176). -/
inductive Line where
  | cyc | feed | vib | tamp | strip | mpres | clamp
  deriving DecidableEq, Repr

/-- The two pins that act as RST# (R179): RST# itself and the PCIe slot's reset signal. -/
inductive ResetPin where
  | rst | slot
  deriving DecidableEq, Repr

/-- The six exchange registers (R148, Table 45). -/
inductive Register where
  | xbaseL | xbaseH | xctl | xlook | xstat | xident
  deriving DecidableEq, Repr

/-- The unit whose operation on the bus is answered with an error (R152): the enable's read or write, the scan's operation,
the mould manager's record read, or the operation of the job in issue. -/
inductive BusUnit where
  | enable | scan | mount | job
  deriving DecidableEq, Repr

/-- A command or event of spec/opcode_table.json. Reads complete with the data they return (log entry 8). -/
inductive Instr where
  /-- SUPPLY_OUT_OF_RANGE (R179). -/
  | supplyOutOfRange
  /-- SUPPLIES_RETURN_WITHIN_RANGE (R179). -/
  | suppliesReturnWithinRange
  /-- SUPPLY_RETURN_DELAY_EXPIRY (R179). -/
  | supplyReturnDelayExpiry
  /-- RST_LOW (R179): the pin goes low. -/
  | rstLow (pin : ResetPin)
  /-- RESET_TAKEN (R179). -/
  | resetTaken
  /-- RESET_END (R179): the pin rises. -/
  | resetEnd (pin : ResetPin)
  /-- FUNCTION_LEVEL_RESET (R179). -/
  | functionLevelReset
  /-- LINE_RAW_CHANGE (R176): the line's voltage is now this many millivolts. -/
  | lineRawChange (line : Line) (millivolts : Nat)
  /-- LINE_FILTER_EXPIRY (R176). -/
  | lineFilterExpiry (line : Line)
  /-- WINDOW_OPEN (R15). -/
  | windowOpen (w : WindowNo)
  /-- WINDOW_CLOSE (R15). -/
  | windowClose (w : WindowNo)
  /-- CLOCK_WRAP (R1). -/
  | clockWrap
  /-- STALL (R9). -/
  | stall
  /-- HIT_START (R30): a half-wave of this amplitude in dB rises through the active threshold. -/
  | hitStart (c : ChannelNo) (amplitude : Nat)
  /-- HIT_CROSSING (R31). -/
  | hitCrossing (c : ChannelNo) (amplitude : Nat)
  /-- HDT_EXPIRY (R32). -/
  | hdtExpiry (c : ChannelNo)
  /-- MAX_DURATION_EXPIRY (R33). -/
  | maxDurationExpiry (c : ChannelNo)
  /-- LOCKOUT_EXPIRY (R36). -/
  | lockoutExpiry (c : ChannelNo)
  /-- SETTLE_EXPIRY (R23): the sampled bias current is this many microamperes. -/
  | settleExpiry (c : ChannelNo) (microamps : Nat)
  /-- BIAS_OVERLOAD (R24): the channel's bias current rises above 30 mA. -/
  | biasOverload (c : ChannelNo)
  /-- ROUTE_END (R42). -/
  | routeEnd (c : ChannelNo)
  /-- EVENT_DEADLINE (R52), for the event of this serial (log entry 31). -/
  | eventDeadline (serial : Nat)
  /-- MOUNT_TIMER_EXPIRY (R115). -/
  | mountTimerExpiry
  /-- ATTEMPT_END_TICK (R137). -/
  | attemptEndTick
  /-- REST_EXPIRY (R139). -/
  | restExpiry
  /-- LAMP_BLINK_TOGGLE (R99). -/
  | lampBlinkToggle
  /-- REGISTER_WRITE (R148). -/
  | registerWrite (reg : Register) (value : Word)
  /-- ENABLE (R150): a write of XCTL sets EN. -/
  | enable
  /-- ENABLE_HEADER_READ_START (R150). -/
  | enableHeaderReadStart
  /-- ENABLE_HEADER_READ_DONE (R150): the header's first 44 bytes. -/
  | enableHeaderReadDone (bytes : List Byte)
  /-- CAPABILITY_WRITE_DONE (R150). -/
  | capabilityWriteDone
  /-- DISABLE (R151): a write of XCTL clears EN. -/
  | disable
  /-- LOOK (R153): a write of XLOOK. -/
  | look
  /-- SCAN_HEADER_READ_DONE (R155): header bytes 0x20 to 0x2B. -/
  | scanHeaderReadDone (bytes : List Byte)
  /-- PROGRAMME_READ_DONE (R156): the programme page's 172 bytes. -/
  | programmeReadDone (bytes : List Byte)
  /-- ECHO_WRITE_DONE (R157). -/
  | echoWriteDone
  /-- BOARD_READ_DONE (R158): the eight state words, 32 bytes. -/
  | boardReadDone (bytes : List Byte)
  /-- CELL_TAKE_CAS_DONE (R158): the value the compare-and-swap found. -/
  | cellTakeCasDone (found : Word)
  /-- MOUNT (R110), as the taken cell holds it. -/
  | mount (notify : Bool) (tag : Half) (offset : Nat) (fresh : Bool)
  /-- DISMOUNT (R118). -/
  | dismount (notify : Bool) (tag : Half)
  /-- TEST_SENSOR (R132). -/
  | testSensor (notify : Bool) (tag : Half) (source amplitude level attempts delay : Nat) (apply : Bool)
  /-- CLEAR_ZONE (R100): a zone index, or 255 for every zone. -/
  | clearZone (notify : Bool) (tag : Half) (zone : Nat)
  /-- RELEASE_STOP (R102). -/
  | releaseStop (notify : Bool) (tag : Half)
  /-- BAD_KIND (R159): an order of a kind that is none of 1 to 5. -/
  | badKind (notify : Bool) (tag : Half) (kind : Nat)
  /-- MOUNT_FIXED_READ_DONE (R111): the record's first 8 bytes. -/
  | mountFixedReadDone (bytes : List Byte)
  /-- MOUNT_DESCRIPTION_READ_DONE (R112): the rest of the description. -/
  | mountDescriptionReadDone (bytes : List Byte)
  /-- MOUNT_CONTEXT_READ_DONE (R114): the context part. -/
  | mountContextReadDone (bytes : List Byte)
  /-- JOB_WRITE_ACCEPTED (R162). -/
  | jobWriteAccepted
  /-- RESULT_STATE_CAS_DONE (R160): the value the compare-and-swap found. -/
  | resultStateCasDone (found : Word)
  /-- BUS_ERROR (R152). -/
  | busError (unit : BusUnit)
  deriving DecidableEq, Repr

end Sys2Proof
end

