-- ==== Sys2Proof/Config.lean ====
section
/-! DEFINITION. What is fixed for one part, and the free values: constants without a body, for what the manual leaves open. -/

namespace Sys2Proof

/-- The two members of the family (00_scope.md, Table 1). -/
inductive Variant where
  /-- Omplar 1640: sixteen channels and the coupling pulser. -/
  | omplar1640
  /-- Omplar 0840: eight channels, no pulser. -/
  | omplar0840
  deriving DecidableEq, Repr

namespace Config

/-- Free value (log entry 9): the reserved bytes and bits of a layout, by the index of the write and the offset in it. -/
opaque freeByte : Nat → Nat → Byte

/-- Free value (log entry 3): the order of the part's own events that fall due at one tick, by the tick's index and the event's place. -/
opaque tieKey : Nat → Nat → Nat

/-- Free value (log entry 10): the bias current in µA that a channel samples at a settle expiry raised by the part's own time. -/
opaque biasSample : Nat → Nat → Nat

/-- Free value (log entry 11): when, within a cycle close, a PULSING source's release reaches its channel (R87). -/
opaque releaseSlot : Nat → Nat

end Config

end Sys2Proof
end

