-- ==== Sys2Proof/Machine/State.lean ====
section
/-! DEFINITION. The state of the part as plain data: every register, queue, timer, mark and latch of the spec, and its values after reset. -/

namespace Sys2Proof.Machine

open Sys2Proof

/-- No step of the part stops with a fault: its errors are states and flags (channel FAULT, AREA_FAULT, refused orders). -/
inductive Fault where
  deriving DecidableEq, Repr

/-- Why a command has no meaning. -/
inductive Refusal where
  /-- A command of the table whose meaning is not written yet; raised by `exec` alone. Safe: the run stops. -/
  | notModelled (mnemonic : String)
  deriving DecidableEq, Repr

/-! ## Board and line inputs (Chapter 10) -/

/-- Reset and supply state (R179). -/
structure Board where
  /-- The card's supplies are all within range. -/
  supplyOk : Bool
  /-- The 20 ms delay after the supplies' return, in ticks left. -/
  supplyDelay : Option Nat
  /-- RST# is low. -/
  rstLow : Bool
  /-- The slot's reset signal is low. -/
  slotLow : Bool
  /-- The 10 µs qualification of a low reset pin, in ticks left. -/
  qualify : Option Nat
  /-- An RST# reset has been taken and has not ended. -/
  rstTaken : Bool
  /-- The internal power-on reset is in effect. -/
  powerOn : Bool
  deriving DecidableEq, Repr

/-- The voltage of a line input against the thresholds of Table 61. -/
inductive Band where
  | low | between | high
  deriving DecidableEq, Repr

/-- One line input stage (R176). A level is true when high. -/
structure LineInput where
  band : Band
  raw : Bool
  filtered : Bool
  timer : Option Nat
  deriving DecidableEq, Repr

/-- The seven line input stages. -/
structure LineInputs where
  cyc : LineInput
  feed : LineInput
  vib : LineInput
  tamp : LineInput
  strip : LineInput
  mpres : LineInput
  clamp : LineInput
  deriving DecidableEq, Repr

/-! ## Cycle timer (Chapter 1) -/

/-- The four phase lines (R10). -/
inductive PhaseLine where
  | feed | vib | tamp | strip
  deriving DecidableEq, Repr

/-- One item for each phase line. -/
structure PerPhase (α : Type) where
  feed : α
  vib : α
  tamp : α
  strip : α
  deriving DecidableEq, Repr

/-- An edge selection (R4, R10, Table 8). -/
inductive EdgeSel where
  | none | rising | falling | both
  deriving DecidableEq, Repr

/-- A window's anchor (Table 6). -/
inductive Anchor where
  | none | cyc | phase (p : PhaseLine)
  deriving DecidableEq, Repr

/-- A window definition (R12, Table 6). -/
structure WindowDef where
  anchor : Anchor
  offset : Nat
  length : Nat
  weight : Nat
  raise : Nat
  deriving DecidableEq, Repr

/-- A window's state in the open cycle (R13, Table 7). -/
inductive WindowState where
  | disabled | waiting | pending | open | spent
  deriving DecidableEq, Repr

/-- A window of the open cycle: its state and its in-cycle definition (R12, R13). -/
structure Window where
  state : WindowState
  defn : WindowDef
  deriving DecidableEq, Repr

/-- A timing part (R17). -/
structure TimingPart where
  cycEdge : EdgeSel
  phaseEdge : PerPhase EdgeSel
  /-- Stall limit in ms. -/
  stallLimit : Nat
  windows : Vector WindowDef 8
  deriving DecidableEq, Repr

/-- The press state (R8). -/
inductive Press where
  | stopped | running
  deriving DecidableEq, Repr

/-- The cycle timer (R1, R3, R8, R17). -/
structure CycleTimer where
  clock : Word
  number : Word
  openedByReset : Bool
  wrapped : Bool
  stallMark : Bool
  captures : PerPhase (Option Word)
  extras : PerPhase Nat
  press : Press
  installed : TimingPart
  pendingPart : Option TimingPart
  windows : Vector Window 8
  deriving DecidableEq, Repr

/-! ## Channel front end (Chapter 2) -/

/-- A channel's state (R21). -/
inductive ChannelState where
  | off | settling | live | fault | pulsing
  deriving DecidableEq, Repr

/-- A hit detector's state (R21). -/
inductive Detector where
  | idle | armed | inHit | lockout
  deriving DecidableEq, Repr

/-- The block that receives a hit (R42). -/
inductive Receiver where
  | correlator | tester
  deriving DecidableEq, Repr

/-- A channel's route (R42): to the correlator, or to the tester from a pulse tick until an end tick. -/
inductive Route where
  | correlator
  | tester (pulseTick endTick : Word)
  deriving DecidableEq, Repr

/-- The hit definition (R29): times in µs, minimum counts. -/
structure HitDef where
  hdt : Nat
  hlt : Nat
  maxDuration : Nat
  minCounts : Nat
  deriving DecidableEq, Repr

/-- The open hit record (Table 13) and its two timers, in ticks left. -/
structure OpenHit where
  arrival : Word
  threshold : Nat
  gate : Nat
  hitDef : HitDef
  counts : Nat
  peak : Nat
  lastCrossing : Word
  receiver : Receiver
  hdtLeft : Nat
  maxLeft : Nat
  deriving DecidableEq, Repr

/-- The pulse on a source's wire (R40, R180): its level and the ticks left of its 1 µs. -/
structure Drive where
  level : Nat
  left : Nat
  deriving DecidableEq, Repr

/-- A channel record (R21, Table 11). -/
structure Channel where
  state : ChannelState
  /-- The settle timer, in ticks left. -/
  settle : Option Nat
  base : Option Nat
  detector : Detector
  hit : Option OpenHit
  /-- The lockout timer, in ticks left. -/
  lockout : Option Nat
  route : Route
  /-- The detector entered ARMED at the present instant (R28, log entry 12). -/
  armedNow : Bool
  drive : Option Drive
  deriving DecidableEq, Repr

/-- The channel front end. -/
structure FrontEnd where
  channels : Vector Channel 16
  hitDef : HitDef
  deriving DecidableEq, Repr

/-! ## Event correlator (Chapter 3) -/

/-- A hit end report (R37, Table 14). -/
structure HitEnd where
  peak : Nat
  counts : Nat
  long : Bool
  cut : Bool
  rejected : Bool
  deriving DecidableEq, Repr

/-- A member of an event (Table 17); its features are absent while it has not ended. -/
structure Member where
  chan : ChannelNo
  arrival : Word
  gate : Nat
  ended : Option HitEnd
  deriving DecidableEq, Repr

/-- An event record (Table 16). `serial` is the model's own name for it (log entry 31). -/
structure Event where
  serial : Nat
  firstChannel : ChannelNo
  firstArrival : Word
  deadline : Word
  widest : Nat
  closing : Bool
  members : List Member
  deriving DecidableEq, Repr

/-- A hit place (R45). -/
inductive HitPlace where
  | none
  | member (serial : Nat)
  | detached
  deriving DecidableEq, Repr

/-- The correlator's cycle tallies (Table 18). -/
structure Tallies where
  delivered : Nat
  rejected : Nat
  orphan : Nat
  empty : Nat
  continuous : Nat
  ungated : Nat
  unlocated : Nat
  unzoned : Nat
  located : Nat
  forced : Nat
  cut : Nat
  deriving DecidableEq, Repr

/-- The event correlator (R44, R45). -/
structure Correlator where
  events : List Event
  places : Vector HitPlace 16
  tallies : Tallies
  nextSerial : Nat
  deriving DecidableEq, Repr

/-- Why an event closed (R58). -/
inductive CloseCause where
  | expiry | forced | cut
  deriving DecidableEq, Repr

/-- An event's class, with what the locator found (R59, R61, R77). -/
inductive EventClass where
  | empty | continuous | ungated | unlocated
  | unzoned (path position : Nat)
  | located (path position zone : Nat)
  deriving DecidableEq, Repr

/-! ## Evidence table (Chapter 5) -/

/-- The four verdicts (R91). -/
inductive Verdict where
  | sound | watch | suspect | cracked
  deriving DecidableEq, Repr

/-- A working path entry (Table 26). -/
structure PathEntry where
  endA : ChannelNo
  endB : ChannelNo
  length : Nat
  velocity : Nat
  calibrated : Bool
  margin : Nat
  guard : Nat
  window : Nat
  deriving DecidableEq, Repr

/-- A zone entry (Table 27), without its blind mark, which is derived (R87). -/
structure ZoneEntry where
  path : Nat
  start : Nat
  stop : Nat
  floor : Nat
  cavity : Nat
  label : Nat
  score : Nat
  verdict : Verdict
  run : Nat
  lastActive : Option Nat
  lifetime : Nat
  tallyEvents : Nat
  tallyActive : Bool
  deriving DecidableEq, Repr

/-- The two working tables, which stand and go together (R81, R83). -/
structure Tables where
  paths : List PathEntry
  zones : List ZoneEntry
  deriving DecidableEq, Repr

/-- The evidence part of the programme (Table 28). -/
structure EvidencePart where
  decay : Nat
  tWatch : Nat
  tSuspect : Nat
  tCrack : Nat
  hysteresis : Nat
  suspectRun : Nat
  stopOnCrack : Bool
  deriving DecidableEq, Repr

/-- The lamp's blink (R99): the half it is in and the ticks left of it. -/
structure Blink where
  on : Bool
  left : Nat
  deriving DecidableEq, Repr

/-- The evidence table (R81 to R99). -/
structure Evidence where
  tables : Option Tables
  part : EvidencePart
  stopLatch : Bool
  blink : Option Blink
  deriving DecidableEq, Repr

/-- A verdict change of a close (R95). -/
structure VerdictChange where
  zone : Nat
  label : Nat
  old : Verdict
  new : Verdict
  deriving DecidableEq, Repr

/-! ## Orders, used by the mould manager, the tester and the exchange unit -/

/-- An order in the hands of its owner: its cell, take number and tag (R158, R159). -/
structure OrderRef where
  cell : CellNo
  take : Word
  tag : Half
  deriving DecidableEq, Repr

/-- Why a mount was fresh (Table 32, Table 55). -/
inductive FreshReason where
  | none | flag | counts | format
  deriving DecidableEq, Repr

/-- The outcome of a partner in a coupling test (R131). -/
inductive PartnerOutcome where
  | pass | weak | dead | skipped
  deriving DecidableEq, Repr

/-- A calibration result (R145). -/
inductive Calibration where
  | ok | range | invalid
  deriving DecidableEq, Repr

/-- What a partner heard (R138, R145). -/
structure Heard where
  transit : Nat
  peak : Nat
  calibration : Calibration
  velocity : Option Nat
  deriving DecidableEq, Repr

/-- A partner entry of a test (R131). -/
structure Partner where
  chan : ChannelNo
  path : Nat
  outcome : Option PartnerOutcome
  heardOn : Option Nat
  heard : Option Heard
  applied : Bool
  routed : Bool
  firstSeen : Bool
  hitOpen : Bool
  arrival : Word
  /-- "Heard in this attempt", with what was heard. -/
  heardNow : Option Heard
  deriving DecidableEq, Repr

/-- The argument a BAD_ARGUMENT refusal names (Table 55). -/
inductive BadArgument where
  | channel | amplitude | level | attempts | delay | noPartner | queueFull | zone
  deriving DecidableEq, Repr

/-- How an accepted test ended (R147). -/
inductive TestEnd where
  | ok | aborted | sourceFault
  deriving DecidableEq, Repr

/-- The result of an order (R160, Table 55): its code with the detail and payload that go with it. -/
inductive OrderResult where
  | ok
  | mountOk (savedBy : Byte) (cyclesWatched : Nat)
  | okFresh (reason : FreshReason)
  | nothingSaved
  | clampTimeout
  | cancelled
  | test (how : TestEnd) (used level : Nat) (partners : List Partner)
  | badKind
  | noMould
  | mounted
  | badDescription (item index : Nat)
  | badArgument (which : BadArgument)
  | areaBounds
  | notSupported
  deriving DecidableEq, Repr

/-! ## Mould manager (Chapter 6) -/

/-- The mould state (R106, Table 33). -/
inductive MouldState where
  | empty | mounting | watching | degraded | suspended | dismounting
  deriving DecidableEq, Repr

/-- The mount phase (Table 32). -/
inductive MountPhase where
  | none | reading | clampWait | settling
  deriving DecidableEq, Repr

/-- The record read the mount has on the bus (R111, R112, R114). -/
inductive MountRead where
  | none | fixed | description | context
  deriving DecidableEq, Repr

/-- The fixed part of a mould record (Table 57). -/
structure FixedPart where
  identity : Word
  channelCount : Nat
  pathCount : Nat
  zoneCount : Nat
  settleCode : Nat
  deriving DecidableEq, Repr

/-- Why a context was saved (R126). -/
inductive SavedBy where
  | checkpoint | dismount | unplanned
  deriving DecidableEq, Repr

/-- The order the mould manager carries out (Table 32). -/
inductive MouldOrder where
  | none
  | mount (o : OrderRef)
  | dismount (o : OrderRef)
  deriving DecidableEq, Repr

/-- The mould manager's record (Table 32) and its part of the programme (R107). -/
structure MouldManager where
  state : MouldState
  identity : Option Word
  offset : Option Nat
  used : List ChannelNo
  settleCode : Nat
  phase : MountPhase
  read : MountRead
  /-- A record read of a mount that is over is still on the bus (log entry 17). -/
  strayRead : Bool
  fixed : Option FixedPart
  /-- The mount timer, in ticks left. -/
  timer : Option Nat
  fresh : FreshReason
  cyclesWatched : Nat
  saveCount : Word
  checkpoint : Nat
  pendingSave : Option SavedBy
  order : MouldOrder
  /-- The saved-by byte of the loaded context (R116). -/
  loadedSavedBy : Byte
  /-- Mount timeout in s. -/
  mountTimeout : Nat
  checkpointInterval : Nat
  deriving DecidableEq, Repr

/-! ## Coupling tester (Chapter 7) -/

/-- The state of a test (Table 41). -/
inductive TestState where
  | waiting | listening | draining | resting
  deriving DecidableEq, Repr

/-- The attempt in progress: its pulse tick and end tick (R137). -/
structure Attempt where
  pulseTick : Word
  endTick : Word
  deriving DecidableEq, Repr

/-- A test record (Table 39). -/
structure Test where
  order : OrderRef
  source : ChannelNo
  required : Nat
  level : Nat
  allowed : Nat
  used : Nat
  delay : Nat
  apply : Bool
  state : TestState
  partners : List Partner
  /-- The rest timer, in ticks left. -/
  rest : Option Nat
  /-- The level of the last counted attempt, or the start level (R147). -/
  lastLevel : Nat
  attempt : Option Attempt
  deriving DecidableEq, Repr

/-! ## Exchange unit (Chapters 8 and 9) -/

/-- The area state (R149). -/
inductive AreaState where
  | unconfigured | headerInvalid | active | areaFault
  deriving DecidableEq, Repr

/-- A write on the bus: its address and its bytes. -/
structure BusWrite where
  addr : Addr
  bytes : List Byte
  deriving DecidableEq, Repr

/-- Where an enable in progress stands (R150). -/
inductive EnablePhase where
  | none | waiting | headerRead
  | capabilityWrite (w : BusWrite)
  deriving DecidableEq, Repr

/-- An operation of an abandoned enable that is still on the bus (R151). -/
inductive StrayEnable where
  | none | headerRead
  | capabilityWrite (w : BusWrite)
  deriving DecidableEq, Repr

/-- The sizes and offsets fixed at the enable (R150). -/
structure Geometry where
  areaSize : Nat
  journalOffset : Nat
  journalSize : Nat
  listOffset : Nat
  listSize : Nat
  deriving DecidableEq, Repr

/-- The kind of a scan (R153). -/
inductive ScanKind where
  | look | close
  deriving DecidableEq, Repr

/-- The operation a scan has on the bus (R153, R155 to R158); `take` and `cellRead` name the cell being treated. -/
inductive ScanPhase where
  | idle | header | programme
  | echo (w : BusWrite)
  | board
  | take (k : CellNo)
  | cellRead (k : CellNo)
  deriving DecidableEq, Repr

/-- The scan unit (R153). -/
structure ScanUnit where
  phase : ScanPhase
  kind : ScanKind
  abandoned : Bool
  mark : Option ScanKind
  generation : Word
  words : List Word
  base : Addr
  deriving DecidableEq, Repr

/-- What a cell's content read gives besides the arguments (R158). -/
structure OrderHead where
  kind : Nat
  notify : Bool
  tag : Half
  deriving DecidableEq, Repr

/-- A cell entry (R158). An IN_HAND entry has no head until its cell has been read. -/
inductive CellEntry where
  | free
  | inHand (take : Word) (head : Option OrderHead)
  | resultWaiting (take : Word) (head : Option OrderHead) (result : OrderResult)
  | answered
  deriving DecidableEq, Repr

/-- A cycle's close kind (Table 5). -/
inductive CloseKind where
  | normal | long | preamble
  deriving DecidableEq, Repr

/-- A cycle record (Table 56, R168). -/
structure CycleRecord where
  first : Word
  last : Word
  coalesced : Nat
  kind : CloseKind
  length : Word
  captures : PerPhase (Option Word)
  extras : PerPhase Nat
  mouldState : MouldState
  identity : Word
  flags : Half
  tallies : Tallies
  notListed : Nat
  changes : List VerdictChange
  overflow : Nat
  deriving DecidableEq, Repr

/-- What accrues to the record of the open cycle (R168). -/
structure Accruals where
  flags : Half
  notListed : Nat
  deriving DecidableEq, Repr

/-- A condition (R171). -/
inductive Condition where
  | stall | channelFault | clampOpen | clampLocked | mouldPulled
  deriving DecidableEq, Repr

/-- A condition record (R171). -/
structure ConditionRecord where
  condition : Condition
  chan : Option ChannelNo
  cycle : Word
  tick : Word
  deriving DecidableEq, Repr

/-- A located-event offer (R63, Table 21). `zone` holds the zone, its label and its verdict for a LOCATED event. -/
structure LocatedOffer where
  cycle : Word
  arrival : Word
  cause : CloseCause
  path : Nat
  position : Nat
  zone : Option (Nat × Nat × Verdict)
  increment : Nat
  peak : Nat
  gate : Nat
  members : List ChannelNo
  deriving DecidableEq, Repr

/-- A zone's entry in the mirror (R164). -/
structure MirrorZone where
  score : Nat
  verdict : Verdict
  run : Nat
  blind : Bool
  events : Nat
  label : Nat
  deriving DecidableEq, Repr

/-- The contents of a zone mirror job (R164). -/
structure MirrorCopy where
  generation : Word
  cycle : Word
  identity : Word
  mouldState : MouldState
  press : Press
  channels : List ChannelState
  mouldVerdict : Option Verdict
  cavities : List Verdict
  zones : List MirrorZone
  deriving DecidableEq, Repr

/-- A zone's part of a context (R103, R128). -/
structure ContextZone where
  score : Nat
  verdict : Verdict
  run : Nat
  lastActive : Option Nat
  lifetime : Nat
  deriving DecidableEq, Repr

/-- The contents of a context save (Table 37). -/
structure ContextCopy where
  savedBy : SavedBy
  saveCount : Word
  cyclesWatched : Nat
  zones : List ContextZone
  velocities : List (Option Nat)
  deriving DecidableEq, Repr

/-- What a write job carries, fixed at its creation (R162). Record jobs hold their slot's offset, sequence number and,
for journal records, whether they met the notice mask (R166). -/
inductive JobBody where
  | cycle (slot : Nat) (seq : Word) (noticed : Bool) (rec : CycleRecord)
  | condition (slot : Nat) (seq : Word) (noticed : Bool) (rec : ConditionRecord)
  | located (slot : Nat) (seq : Word) (rec : LocatedOffer)
  | mirror (copy : MirrorCopy)
  | result (cell : CellNo) (take : Word) (notify : Bool) (result : OrderResult)
  | save (offset : Nat) (copy : ContextCopy)
  deriving DecidableEq, Repr

/-- A write job: its contents, the area's base at its creation, and the index of its free bytes. -/
structure Job where
  base : Addr
  seed : Nat
  body : JobBody
  deriving DecidableEq, Repr

/-- The job in issue: how many of its operations have been accepted, and whether one is on the bus. -/
structure Issue where
  accepted : Nat
  onBus : Bool
  deriving DecidableEq, Repr

/-- The exchange unit (R148 to R175). -/
structure Exchange where
  baseL : Word
  baseH : Word
  en : Bool
  area : AreaState
  checkCode : Nat
  enabling : EnablePhase
  strayEnable : StrayEnable
  geometry : Geometry
  scan : ScanUnit
  lastTaken : Option Word
  noticeMask : Half
  listSelection : Nat
  listLevel : Nat
  nextJournal : Option Word
  nextLocated : Option Word
  consumedJournal : Option Word
  consumedLocated : Option Word
  accruals : Accruals
  carry : Option CycleRecord
  queue : List Job
  issue : Option Issue
  cells : Vector CellEntry 8
  takeNumber : Word
  mirrorGeneration : Word
  lastNoticed : Option Word
  attn : Bool
  deriving DecidableEq, Repr

/-! ## The machine -/

/-- The whole state of the part, the bytes it has put into line-computer memory (log entry 7), the index of the next free
value (log entry 9), and the queue of waiting commands. -/
structure State where
  variant : Variant
  board : Board
  lines : LineInputs
  timer : CycleTimer
  front : FrontEnd
  corr : Correlator
  evid : Evidence
  mould : MouldManager
  tester : List Test
  xu : Exchange
  area : List Host.Cell
  freeNext : Nat
  pending : List Instr
  deriving DecidableEq, Repr

/-! ## Values after reset -/

/-- The board right after reset: supplies in range, both reset pins high (log entry 5). -/
def resetBoard : Board :=
  { supplyOk := true, supplyDelay := none, rstLow := false, slotLow := false, qualify := none, rstTaken := false, powerOn := false }

/-- A line input stage right after reset with its pin low (log entry 5). -/
def resetLine : LineInput := { band := .low, raw := false, filtered := false, timer := none }

/-- The line input stages right after reset. -/
def resetLines : LineInputs :=
  { cyc := resetLine, feed := resetLine, vib := resetLine, tamp := resetLine, strip := resetLine, mpres := resetLine, clamp := resetLine }

/-- The default window definition (Table 6). -/
def defaultWindow : WindowDef := { anchor := .none, offset := 0, length := 1, weight := 0, raise := 0 }

/-- The default timing part (Table 8). -/
def defaultTiming : TimingPart :=
  { cycEdge := .rising, phaseEdge := ⟨.none, .none, .none, .none⟩, stallLimit := 30000, windows := Vector.replicate 8 defaultWindow }

/-- The cycle timer after reset (Table 10). -/
def resetTimer : CycleTimer :=
  { clock := 0, number := 0, openedByReset := true, wrapped := false, stallMark := false
    captures := ⟨none, none, none, none⟩, extras := ⟨0, 0, 0, 0⟩, press := .stopped
    installed := defaultTiming, pendingPart := none
    windows := Vector.replicate 8 { state := .disabled, defn := defaultWindow } }

/-- A channel record after reset (Table 11). -/
def resetChannel : Channel :=
  { state := .off, settle := none, base := none, detector := .idle, hit := none, lockout := none, route := .correlator
    armedNow := false, drive := none }

/-- The channel front end after reset (Table 15). -/
def resetFront : FrontEnd :=
  { channels := Vector.replicate 16 resetChannel, hitDef := { hdt := 100, hlt := 500, maxDuration := 20000, minCounts := 2 } }

/-- Tallies all 0 (R45). -/
def zeroTallies : Tallies :=
  { delivered := 0, rejected := 0, orphan := 0, empty := 0, continuous := 0, ungated := 0, unlocated := 0, unzoned := 0
    located := 0, forced := 0, cut := 0 }

/-- The correlator after reset (R45, R57). -/
def resetCorr : Correlator :=
  { events := [], places := Vector.replicate 16 .none, tallies := zeroTallies, nextSerial := 0 }

/-- The evidence table after reset (Table 31). -/
def resetEvid : Evidence :=
  { tables := none
    part := { decay := 8, tWatch := 1000, tSuspect := 4000, tCrack := 12000, hysteresis := 250, suspectRun := 0, stopOnCrack := false }
    stopLatch := false, blink := none }

/-- The mould manager after reset (Table 32, R107). -/
def resetMould : MouldManager :=
  { state := .empty, identity := none, offset := none, used := [], settleCode := 0, phase := .none, read := .none
    strayRead := false, fixed := none, timer := none, fresh := .none, cyclesWatched := 0, saveCount := 0, checkpoint := 0
    pendingSave := none, order := .none, loadedSavedBy := 0, mountTimeout := 60, checkpointInterval := 0 }

/-- Nothing accrued (Table 60). -/
def noAccruals : Accruals := { flags := 0, notListed := 0 }

/-- The scan unit after reset (R153). -/
def resetScan : ScanUnit :=
  { phase := .idle, kind := .look, abandoned := false, mark := none, generation := 0, words := [], base := 0 }

/-- The exchange unit after reset (Tables 50 and 60). -/
def resetXu : Exchange :=
  { baseL := 0, baseH := 0, en := false, area := .unconfigured, checkCode := 0, enabling := .none, strayEnable := .none
    geometry := { areaSize := 0, journalOffset := 0, journalSize := 0, listOffset := 0, listSize := 0 }
    scan := resetScan, lastTaken := none, noticeMask := 0, listSelection := 0, listLevel := 0
    nextJournal := none, nextLocated := none, consumedJournal := none, consumedLocated := none
    accruals := noAccruals, carry := none, queue := [], issue := none, cells := Vector.replicate 8 .free, takeNumber := 0
    mirrorGeneration := 0, lastNoticed := none, attn := false }

/-- A part of the given variant right after reset. -/
def State.resetOf (v : Variant) : State :=
  { variant := v, board := resetBoard, lines := resetLines, timer := resetTimer, front := resetFront, corr := resetCorr
    evid := resetEvid, mould := resetMould, tester := [], xu := resetXu, area := [], freeNext := 0, pending := [] }

/-- The machine right after reset: a 1640 (log entry 6). -/
def State.reset : State := State.resetOf .omplar1640

end Sys2Proof.Machine
end

