-- ==== Sys2Proof/Machine/Ops.lean ====
section
/-! DEFINITION. The named operations over the state that every block uses: figures of the variant, times in ticks, the line and
channel accessors, the bytes put into line-computer memory, and the values the cycle timer derives. -/

namespace Sys2Proof.Machine

open Sys2Proof

/-! ## Numbers -/

/-- A saturating sum: it stops at `top` (00_scope.md, Numbers). -/
def satAdd (top a b : Nat) : Nat := min top (a + b)

/-- 2^32 − 1, where 32-bit counts stop. -/
def top32 : Nat := 4294967295

/-- 65535, where 16-bit counts stop. -/
def top16 : Nat := 65535

/-- The difference of two ticks or sequence numbers, modulo 2^32, read as unsigned (00_scope.md, Numbers). -/
def diff32 (a b : Word) : Nat := (a - b).toNat

/-- The clock has reached `target`, counted from `start` modulo 2^32 (R42, R52, R137). -/
def reached (clock start target : Word) : Bool := decide (diff32 target start ≤ diff32 clock start)

/-- A running timer one tick later; it waits at 0 until its expiry is taken. -/
def tickTimer (t : Option Nat) : Option Nat := t.map (· - 1)

/-- The timer has run out. -/
def expired (t : Option Nat) : Bool := decide (t = some 0)

/-! ## Times in ticks of 100 ns -/

/-- Ticks in one microsecond. -/
def ticksPerMicrosecond : Nat := 10

/-- Ticks in one millisecond. -/
def ticksPerMillisecond : Nat := 10000

/-- The filter time of a line (R176): 10 µs, or 20 ms for MPRES and CLAMP. -/
def filterTicks : Line → Nat
  | .mpres | .clamp => 20 * ticksPerMillisecond
  | _ => 10 * ticksPerMicrosecond

/-- The settle time of a settle code (R22): 20, 50, 100, 200 ms. -/
def settleTicks (code : Nat) : Nat :=
  (if code = 0 then 20 else if code = 1 then 50 else if code = 2 then 100 else 200) * ticksPerMillisecond

/-- The qualification of a low reset pin: 10 µs (R179). -/
def qualifyTicks : Nat := 10 * ticksPerMicrosecond

/-- The delay after the supplies' return: 20 ms (R179). -/
def supplyDelayTicks : Nat := 20 * ticksPerMillisecond

/-- One half of the lamp's blink: 500 ms (R99). -/
def blinkTicks : Nat := 500 * ticksPerMillisecond

/-- The rest between attempts: 10 ms (R139). -/
def restTicks : Nat := 10 * ticksPerMillisecond

/-- The width of a coupling pulse: 1 µs (R180). -/
def pulseTicks : Nat := ticksPerMicrosecond

/-- The bias current limit in µA: 30 mA (R23). -/
def biasLimit : Nat := 30000

/-! ## Figures of the variant (Table 1) -/

/-- Sensor channels of the variant. -/
def channelCount : Variant → Nat
  | .omplar1640 => 16
  | .omplar0840 => 8

/-- Paths per mould of the variant. -/
def pathLimit : Variant → Nat
  | .omplar1640 => 24
  | .omplar0840 => 12

/-- Zones per mould of the variant. -/
def zoneLimit : Variant → Nat
  | .omplar1640 => 64
  | .omplar0840 => 32

/-- The pulser is fitted. -/
def pulserFitted : Variant → Bool
  | .omplar1640 => true
  | .omplar0840 => false

/-- The channel numbers in order. -/
def allChannels : List ChannelNo := [0, 1, 2, 3, 4, 5, 6, 7, 8, 9, 10, 11, 12, 13, 14, 15]

/-- The window numbers in order. -/
def allWindows : List WindowNo := [0, 1, 2, 3, 4, 5, 6, 7]

/-- The order cells in order. -/
def allCells : List CellNo := [0, 1, 2, 3, 4, 5, 6, 7]

/-- The lines in order. -/
def allLines : List Line := [.cyc, .feed, .vib, .tamp, .strip, .mpres, .clamp]

/-- The channel exists on the variant (R21). -/
def fitted (s : State) (c : ChannelNo) : Bool := decide (c.val < channelCount s.variant)

/-! ## Phase lines and line inputs -/

/-- The item of a phase line. -/
def PerPhase.at {α : Type} (x : PerPhase α) : PhaseLine → α
  | .feed => x.feed
  | .vib => x.vib
  | .tamp => x.tamp
  | .strip => x.strip

/-- The items with one phase line's replaced. -/
def PerPhase.put {α : Type} (x : PerPhase α) (p : PhaseLine) (v : α) : PerPhase α :=
  match p with
  | .feed => { x with feed := v }
  | .vib => { x with vib := v }
  | .tamp => { x with tamp := v }
  | .strip => { x with strip := v }

/-- The input stage of a line. -/
def LineInputs.at (ls : LineInputs) : Line → LineInput
  | .cyc => ls.cyc
  | .feed => ls.feed
  | .vib => ls.vib
  | .tamp => ls.tamp
  | .strip => ls.strip
  | .mpres => ls.mpres
  | .clamp => ls.clamp

/-- The input stages with one line's replaced. -/
def LineInputs.put (ls : LineInputs) (l : Line) (v : LineInput) : LineInputs :=
  match l with
  | .cyc => { ls with cyc := v }
  | .feed => { ls with feed := v }
  | .vib => { ls with vib := v }
  | .tamp => { ls with tamp := v }
  | .strip => { ls with strip := v }
  | .mpres => { ls with mpres := v }
  | .clamp => { ls with clamp := v }

/-- Every input stage changed alike. -/
def LineInputs.all (f : LineInput → LineInput) (ls : LineInputs) : LineInputs :=
  { cyc := f ls.cyc, feed := f ls.feed, vib := f ls.vib, tamp := f ls.tamp, strip := f ls.strip, mpres := f ls.mpres
    clamp := f ls.clamp }

/-- The voltage band of a line at this many millivolts: low at or below 5 V, high at or above 15 V (Table 61). -/
def bandOf (millivolts : Nat) : Band :=
  if millivolts ≤ 5000 then .low else if 15000 ≤ millivolts then .high else .between

/-- The raw level a band gives: between the thresholds the raw level stays as it was (R176). -/
def rawLevel (earlier : Bool) : Band → Bool
  | .low => false
  | .high => true
  | .between => earlier

/-- CLAMP is locked (R176). -/
def clampLocked (s : State) : Bool := s.lines.clamp.filtered

/-- A mould is present (R176). -/
def mouldPresent (s : State) : Bool := s.lines.mpres.filtered

/-! ## Updates of one block -/

/-- The state with the cycle timer changed. -/
def State.onTimer (f : CycleTimer → CycleTimer) (s : State) : State := { s with timer := f s.timer }

/-- The state with the correlator changed. -/
def State.onCorr (f : Correlator → Correlator) (s : State) : State := { s with corr := f s.corr }

/-- The state with the evidence table changed. -/
def State.onEvid (f : Evidence → Evidence) (s : State) : State := { s with evid := f s.evid }

/-- The state with the mould manager changed. -/
def State.onMould (f : MouldManager → MouldManager) (s : State) : State := { s with mould := f s.mould }

/-- The state with the exchange unit changed. -/
def State.onXu (f : Exchange → Exchange) (s : State) : State := { s with xu := f s.xu }

/-- The state with one line's input stage replaced. -/
def State.putLine (l : Line) (v : LineInput) (s : State) : State := { s with lines := s.lines.put l v }

/-- A channel's record. -/
def State.channel (s : State) (c : ChannelNo) : Channel := s.front.channels[c]

/-- The state with one channel's record changed. -/
def State.onChannel (c : ChannelNo) (f : Channel → Channel) (s : State) : State :=
  { s with front := { s.front with channels := s.front.channels.set c (f s.front.channels[c]) } }

/-- The state with one hit place replaced (R45). -/
def State.putPlace (c : ChannelNo) (p : HitPlace) (s : State) : State :=
  { s with corr := { s.corr with places := s.corr.places.set c p } }

/-- The state with one cell entry replaced (R158). -/
def State.putCell (k : CellNo) (e : CellEntry) (s : State) : State :=
  { s with xu := { s.xu with cells := s.xu.cells.set k e } }

/-- The next free value's index is used up (log entry 9). -/
def State.useFree (s : State) : State := { s with freeNext := s.freeNext + 1 }

/-- The current test changed. -/
def State.onTest (f : Test → Test) (s : State) : State :=
  match s.tester with
  | [] => s
  | t :: ts => { s with tester := f t :: ts }

/-! ## Reset conditions (R179) -/

/-- Every block is held at its values after reset. -/
def held (s : State) : Bool := s.board.rstTaken || s.board.powerOn

/-- A reset pin is low. -/
def pinLow (b : Board) : Bool := b.rstLow || b.slotLow

/-! ## Bytes put into line-computer memory (log entry 7) -/

/-- The byte the part has put at an address, if any. -/
def readArea : List Host.Cell → Nat → Option Byte
  | [], _ => none
  | (k, v) :: m, a => if k = a then some v else readArea m a

/-- One byte put at an address; the addresses stay strictly rising. -/
def putByte : List Host.Cell → Nat → Byte → List Host.Cell
  | [], a, b => [(a, b)]
  | (k, v) :: m, a, b =>
    if a < k then (a, b) :: (k, v) :: m
    else if a = k then (a, b) :: m
    else (k, v) :: putByte m a b

/-- Bytes put from an address on; addresses wrap at 2^64 (log entry 33). -/
def putBytes : List Host.Cell → Addr → List Byte → List Host.Cell
  | m, _, [] => m
  | m, a, b :: bs => putBytes (putByte m a.toNat b) (a + 1) bs

/-- The canonical form: addresses strictly rise. -/
def areaWf : List Host.Cell → Bool
  | [] => true
  | [_] => true
  | (a, _) :: (b, v) :: m => decide (a < b) && areaWf ((b, v) :: m)

/-- An accepted write lands (R152). -/
def State.land (w : BusWrite) (s : State) : State := { s with area := putBytes s.area w.addr w.bytes }

/-- The base address in use, from the two registers (R148). -/
def baseOf (s : State) : Addr := s.xu.baseH ++ s.xu.baseL

/-- The address at an offset from a base. -/
def addrAt (base : Addr) (offset : Nat) : Addr := base + BitVec.ofNat 64 offset

/-! ## Little-endian bytes (00_scope.md, Memory) -/

/-- The low 8 bits of a number. -/
def byteOf (n : Nat) : Byte := BitVec.ofNat 8 n

/-- A 16-bit field, least significant byte first. -/
def bytes16 (n : Nat) : List Byte := [byteOf n, byteOf (n / 256)]

/-- A 32-bit field, least significant byte first. -/
def bytes32 (n : Nat) : List Byte := [byteOf n, byteOf (n / 256), byteOf (n / 65536), byteOf (n / 16777216)]

/-- A 32-bit word, least significant byte first. -/
def bytesWord (w : Word) : List Byte := bytes32 w.toNat

/-! ## What the cycle timer derives (R12, R13, R16) -/

/-- An edge of this direction is included in the selection (R4, R10). -/
def selects (sel : EdgeSel) (rising : Bool) : Bool :=
  match sel with
  | .none => false
  | .rising => rising
  | .falling => !rising
  | .both => true

/-- The capture an anchor stands for in the open cycle (R6, R12): the CYC capture is 0 in a cycle a CYC edge opened. -/
def anchorCapture (t : CycleTimer) : Anchor → Option Nat
  | .none => none
  | .cyc => if t.openedByReset then none else some 0
  | .phase p => (t.captures.at p).map (·.toNat)

/-- A window's open tick, computed without wrapping (R12). -/
def openTick (t : CycleTimer) (d : WindowDef) : Option Nat := (anchorCapture t d.anchor).map (· + d.offset)

/-- A window's close tick, computed without wrapping (R12). -/
def closeTick (t : CycleTimer) (d : WindowDef) : Option Nat := (openTick t d).map (· + d.length)

/-- The clock has reached the tick. -/
def clockAt (t : CycleTimer) (tick : Option Nat) : Bool :=
  match tick with
  | none => false
  | some n => decide (n ≤ t.clock.toNat)

/-- A function applied to every window with its number. -/
def mapWindows {α β : Type} (f : α → β) (v : Vector α 8) : Vector β 8 :=
  #v[f v[0], f v[1], f v[2], f v[3], f v[4], f v[5], f v[6], f v[7]]

/-- The largest of a field over the OPEN windows, 0 when none is OPEN (R16). -/
def largestOpen (field : WindowDef → Nat) (v : Vector Window 8) : Nat :=
  v.toList.foldl (fun m w => if w.state = .open then max m (field w.defn) else m) 0

/-- The current raise (R16). -/
def currentRaise (t : CycleTimer) : Nat := largestOpen WindowDef.raise t.windows

/-- The current gate (R16). -/
def currentGate (t : CycleTimer) : Nat := largestOpen WindowDef.weight t.windows

/-- The stall tick of the installed timing part (R9). -/
def stallTick (t : CycleTimer) : Nat := t.installed.stallLimit * ticksPerMillisecond

/-! ## What other blocks derive -/

/-- The mould is WATCHING or DEGRADED: a close taken now is a mould cycle (R88, R124). -/
def watching (s : State) : Bool :=
  match s.mould.state with
  | .watching | .degraded => true
  | _ => false

/-- The working path table is in use for location (R60, Table 33). -/
def locating (s : State) : Bool :=
  match s.mould.state with
  | .watching | .degraded | .suspended | .dismounting => true
  | _ => false

/-- The channel is LIVE. -/
def live (s : State) (c : ChannelNo) : Bool := decide ((s.channel c).state = .live)

/-- The channel is LIVE or FAULT. -/
def settled (s : State) (c : ChannelNo) : Bool :=
  match (s.channel c).state with
  | .live | .fault => true
  | _ => false

/-- The channel is LIVE or PULSING, as the mould manager counts it (R109). -/
def hearing (s : State) (c : ChannelNo) : Bool :=
  match (s.channel c).state with
  | .live | .pulsing => true
  | _ => false

/-- The working paths, none while no table stands. -/
def pathsOf (s : State) : List PathEntry :=
  match s.evid.tables with
  | none => []
  | some t => t.paths

/-- The zones, none while no table stands. -/
def zonesOf (s : State) : List ZoneEntry :=
  match s.evid.tables with
  | none => []
  | some t => t.zones

/-- The mounted identity, 0 while EMPTY (R108), and 0 too while MOUNTING before the description is validated, the model's choice (log
entry 43). -/
def identityWord (s : State) : Word := s.mould.identity.getD 0

/-- The area is ACTIVE. -/
def active (s : State) : Bool := decide (s.xu.area = .active)

end Sys2Proof.Machine
end

