-- ==== Sys2Proof/Machine/Operands.lean ====
section
/-! DEFINITION. What the bytes read from the exchange area say: the header, the programme page, the state words, the mould
record's description and context (Tables 53, 54, 57), with their range checks (Tables 35, 47, 48). -/

namespace Sys2Proof.Machine

open Sys2Proof

/-! ## Fields -/

/-- The byte at an offset. -/
def u8 (bs : List Byte) (i : Nat) : Nat := (bs.getD i 0).toNat

/-- The little-endian 16-bit field at an offset. -/
def u16 (bs : List Byte) (i : Nat) : Nat := u8 bs i + 256 * u8 bs (i + 1)

/-- The little-endian 32-bit field at an offset. -/
def u32 (bs : List Byte) (i : Nat) : Nat := u16 bs i + 65536 * u16 bs (i + 2)

/-- The little-endian 32-bit word at an offset. -/
def w32 (bs : List Byte) (i : Nat) : Word := BitVec.ofNat 32 (u32 bs i)

/-- A number is within an inclusive range. -/
def within (lo hi n : Nat) : Bool := decide (lo ≤ n) && decide (n ≤ hi)

/-! ## Extents -/

/-- Two extents, each an offset and a length in bytes, share a byte. -/
def overlap (o₁ n₁ o₂ n₂ : Nat) : Bool := decide (o₁ < o₂ + n₂) && decide (o₂ < o₁ + n₁) && decide (0 < n₁) && decide (0 < n₂)

/-- The fixed pages end here (R110). -/
def fixedPagesEnd : Nat := 0x3000

/-- The journal's extent in bytes. -/
def journalBytes (g : Geometry) : Nat := g.journalSize * 128

/-- The located-event list's extent in bytes. -/
def listBytes (g : Geometry) : Nat := g.listSize * 32

/-- An extent of a mould record lies inside the area and clear of the fixed pages and both rings (R110, R111, R126). -/
def recordFits (g : Geometry) (offset bytes : Nat) : Bool :=
  decide (offset + bytes ≤ g.areaSize) && !overlap offset bytes 0 fixedPagesEnd
    && !overlap offset bytes g.journalOffset (journalBytes g) && !overlap offset bytes g.listOffset (listBytes g)

/-! ## Header (Tables 47 and 53) -/

/-- The size is a power of two from `lo` to `hi`, both powers of two. -/
def powerWithin (lo hi n : Nat) : Bool := within lo hi n && decide (2 ^ Nat.log2 n = n)

/-- The geometry a header gives. -/
def headerGeometry (bs : List Byte) : Geometry :=
  { areaSize := u32 bs 0x04, journalOffset := u32 bs 0x08, journalSize := u32 bs 0x0C, listOffset := u32 bs 0x10
    listSize := u32 bs 0x14 }

/-- Check 2 of Table 47 holds. -/
def areaSizeOk (g : Geometry) : Bool := within 0x10000 0x1000000 g.areaSize && decide (g.areaSize % 4096 = 0)

/-- Check 3 of Table 47 holds. -/
def journalOk (g : Geometry) : Bool :=
  powerWithin 16 1024 g.journalSize && decide (g.journalOffset % 128 = 0)
    && decide (g.journalOffset + journalBytes g ≤ g.areaSize) && decide (fixedPagesEnd ≤ g.journalOffset)

/-- Check 4 of Table 47 holds. -/
def listOk (g : Geometry) : Bool :=
  decide (g.listSize = 0) ||
    (powerWithin 64 8192 g.listSize && decide (g.listOffset % 32 = 0)
      && decide (g.listOffset + listBytes g ≤ g.areaSize) && decide (fixedPagesEnd ≤ g.listOffset))

/-- Check 5 of Table 47 holds. -/
def ringsApart (g : Geometry) : Bool := !overlap g.journalOffset (journalBytes g) g.listOffset (listBytes g)

/-- The code of the first failing check of Table 47, 0 when every check passes (R150). -/
def headerCode (bs : List Byte) : Nat :=
  let g := headerGeometry bs
  if u32 bs 0x00 ≠ 1 then 1
  else if !areaSizeOk g then 2
  else if !journalOk g then 3
  else if !listOk g then 4
  else if !ringsApart g then 5
  else 0

/-! ## Programme page (Tables 48 and 54) -/

/-- The programme: every effective value (Tables 8, 13a, 28, R107, R156). -/
structure Programme where
  timing : TimingPart
  hitDef : HitDef
  evidence : EvidencePart
  mountTimeout : Nat
  checkpointInterval : Nat
  noticeMask : Half
  listSelection : Nat
  listLevel : Nat
  deriving DecidableEq, Repr

/-- An edge selection's code (Table 54). -/
def edgeOf : Nat → Option EdgeSel
  | 0 => some .none
  | 1 => some .rising
  | 2 => some .falling
  | 3 => some .both
  | _ => none

/-- A CYC edge selection's code: NONE is out of range (Table 48). -/
def cycEdgeOf : Nat → Option EdgeSel
  | 0 => none
  | n => edgeOf n

/-- An anchor's code (Table 54). -/
def anchorOf : Nat → Option Anchor
  | 0 => some .none
  | 1 => some .cyc
  | 2 => some (.phase .feed)
  | 3 => some (.phase .vib)
  | 4 => some (.phase .tamp)
  | 5 => some (.phase .strip)
  | _ => none

/-- Window `w` of the page, when every field is within Table 6. -/
def pageWindow (bs : List Byte) (w : Nat) : Option WindowDef :=
  let o := 0x10 + 16 * w
  match anchorOf (u8 bs o) with
  | none => none
  | some a =>
    if u8 bs (o + 1) ≤ 15 ∧ u8 bs (o + 2) ≤ 40 ∧ u32 bs (o + 4) < 2 ^ 31 ∧ 1 ≤ u32 bs (o + 8) ∧ u32 bs (o + 8) ≤ 2 ^ 31 then
      some { anchor := a, offset := u32 bs (o + 4), length := u32 bs (o + 8), weight := u8 bs (o + 1), raise := u8 bs (o + 2) }
    else none

/-- Group 19 is in range. -/
def thresholdsOk (w s c h : Nat) : Bool :=
  within 1 65535 w && within 1 65535 s && within 1 65535 c && decide (w < s) && decide (s < c) && decide (h < w)

/-- Whether each group of Table 48, in index order, is in range. -/
def groupsInRange (bs : List Byte) : List Bool :=
  [(cycEdgeOf (u8 bs 0)).isSome, (edgeOf (u8 bs 1)).isSome, (edgeOf (u8 bs 2)).isSome, (edgeOf (u8 bs 3)).isSome,
   (edgeOf (u8 bs 4)).isSome, within 1000 400000 (u32 bs 0x08),
   (pageWindow bs 0).isSome, (pageWindow bs 1).isSome, (pageWindow bs 2).isSome, (pageWindow bs 3).isSome,
   (pageWindow bs 4).isSome, (pageWindow bs 5).isSome, (pageWindow bs 6).isSome, (pageWindow bs 7).isSome,
   within 10 1000 (u16 bs 0x90), within 0 10000 (u16 bs 0x92), within 100 65535 (u16 bs 0x94), within 1 255 (u8 bs 0x96),
   within 0 15 (u8 bs 0x97), thresholdsOk (u16 bs 0x98) (u16 bs 0x9A) (u16 bs 0x9C) (u16 bs 0x9E),
   decide (u8 bs 0xA0 = 0) || within 2 255 (u8 bs 0xA0), within 0 1 (u8 bs 0xA1), within 1 255 (u8 bs 0xA2),
   within 0 65535 (u16 bs 0xA8), decide (u16 bs 0xAA < 2048), within 0 3 (u8 bs 0xA3) && within 0 3 (u8 bs 0xA4)]

/-- The number of groups held (R157). -/
def heldCount (bs : List Byte) : Nat := (groupsInRange bs).countP (fun ok => !ok)

/-- The index of the first group held, 0xFF when none (R157). -/
def firstHeld (bs : List Byte) : Nat := ((groupsInRange bs).findIdx? (fun ok => !ok)).getD 0xFF

/-- The value read when its check holds, else the effective value from before (R156). -/
def taken {α : Type} (ok : Bool) (read old : α) : α := if ok then read else old

/-- The effective programme after a take of this page (R156): a group in range takes the value read, a held group keeps its own. -/
def takeProgramme (old : Programme) (bs : List Byte) : Programme :=
  let thr := thresholdsOk (u16 bs 0x98) (u16 bs 0x9A) (u16 bs 0x9C) (u16 bs 0x9E)
  let lst := within 0 3 (u8 bs 0xA3) && within 0 3 (u8 bs 0xA4)
  let ow := old.timing.windows
  { timing :=
      { cycEdge := (cycEdgeOf (u8 bs 0)).getD old.timing.cycEdge
        phaseEdge :=
          { feed := (edgeOf (u8 bs 1)).getD old.timing.phaseEdge.feed
            vib := (edgeOf (u8 bs 2)).getD old.timing.phaseEdge.vib
            tamp := (edgeOf (u8 bs 3)).getD old.timing.phaseEdge.tamp
            strip := (edgeOf (u8 bs 4)).getD old.timing.phaseEdge.strip }
        stallLimit := taken (within 1000 400000 (u32 bs 0x08)) (u32 bs 0x08) old.timing.stallLimit
        windows :=
          #v[(pageWindow bs 0).getD ow[0], (pageWindow bs 1).getD ow[1], (pageWindow bs 2).getD ow[2], (pageWindow bs 3).getD ow[3],
             (pageWindow bs 4).getD ow[4], (pageWindow bs 5).getD ow[5], (pageWindow bs 6).getD ow[6], (pageWindow bs 7).getD ow[7]] }
    hitDef :=
      { hdt := taken (within 10 1000 (u16 bs 0x90)) (u16 bs 0x90) old.hitDef.hdt
        hlt := taken (within 0 10000 (u16 bs 0x92)) (u16 bs 0x92) old.hitDef.hlt
        maxDuration := taken (within 100 65535 (u16 bs 0x94)) (u16 bs 0x94) old.hitDef.maxDuration
        minCounts := taken (within 1 255 (u8 bs 0x96)) (u8 bs 0x96) old.hitDef.minCounts }
    evidence :=
      { decay := taken (within 0 15 (u8 bs 0x97)) (u8 bs 0x97) old.evidence.decay
        tWatch := taken thr (u16 bs 0x98) old.evidence.tWatch
        tSuspect := taken thr (u16 bs 0x9A) old.evidence.tSuspect
        tCrack := taken thr (u16 bs 0x9C) old.evidence.tCrack
        hysteresis := taken thr (u16 bs 0x9E) old.evidence.hysteresis
        suspectRun := taken (decide (u8 bs 0xA0 = 0) || within 2 255 (u8 bs 0xA0)) (u8 bs 0xA0) old.evidence.suspectRun
        stopOnCrack := taken (within 0 1 (u8 bs 0xA1)) (decide (u8 bs 0xA1 = 1)) old.evidence.stopOnCrack }
    mountTimeout := taken (within 1 255 (u8 bs 0xA2)) (u8 bs 0xA2) old.mountTimeout
    checkpointInterval := taken (within 0 65535 (u16 bs 0xA8)) (u16 bs 0xA8) old.checkpointInterval
    noticeMask := taken (decide (u16 bs 0xAA < 2048)) (BitVec.ofNat 16 (u16 bs 0xAA)) old.noticeMask
    listSelection := taken lst (u8 bs 0xA3) old.listSelection
    listLevel := taken lst (u8 bs 0xA4) old.listLevel }

/-- The effective programme the part works with: each part from the block that holds it, the timing part last delivered (R156). -/
def effectiveProgramme (s : State) : Programme :=
  { timing := s.timer.pendingPart.getD s.timer.installed
    hitDef := s.front.hitDef
    evidence := s.evid.part
    mountTimeout := s.mould.mountTimeout
    checkpointInterval := s.mould.checkpointInterval
    noticeMask := s.xu.noticeMask
    listSelection := s.xu.listSelection
    listLevel := s.xu.listLevel }

/-! ## Order cell codes (Table 55) -/

/-- State word EMPTY. -/
def wordEmpty : Word := 0

/-- State word POSTED. -/
def wordPosted : Word := 1

/-- State word TAKEN. -/
def wordTaken : Word := 2

/-- State word DONE. -/
def wordDone : Word := 3

/-- State word REFUSED. -/
def wordRefused : Word := 4

/-- The eight state words of a board read (R158). -/
def boardWords (bs : List Byte) : List Word := (List.range 8).map fun k => w32 bs (4 * k)

/-! ## Mould record (Table 57) -/

/-- The fixed part of a record. -/
def parseFixed (bs : List Byte) : FixedPart :=
  { identity := w32 bs 0, channelCount := u8 bs 4, pathCount := u8 bs 5, zoneCount := u8 bs 6, settleCode := u8 bs 7 }

/-- The bytes of the description beyond the fixed part. -/
def descriptionBytes (f : FixedPart) : Nat := 2 * f.channelCount + 9 * f.pathCount + 9 * f.zoneCount

/-- The context's offset within a record: X of Table 57. -/
def contextOffset (channels paths zones : Nat) : Nat := (8 + 2 * channels + 9 * paths + 9 * zones + 7) / 8 * 8

/-- The bytes of a record's context part. -/
def contextBytes (paths zones : Nat) : Nat := 15 + 13 * zones + 3 * paths

/-- The extent of a whole record. -/
def recordExtent (channels paths zones : Nat) : Nat := contextOffset channels paths zones + contextBytes paths zones

/-- A channel entry: number and base threshold. -/
structure ChannelSpec where
  chan : Nat
  threshold : Nat
  deriving DecidableEq, Repr

/-- A path of a description. -/
structure PathSpec where
  endA : Nat
  endB : Nat
  length : Nat
  velocity : Nat
  margin : Nat
  guard : Nat
  deriving DecidableEq, Repr

/-- A zone of a description. -/
structure ZoneSpec where
  path : Nat
  cavity : Nat
  start : Nat
  stop : Nat
  floor : Nat
  label : Nat
  deriving DecidableEq, Repr

/-- A mould description. -/
structure Description where
  fixed : FixedPart
  channels : List ChannelSpec
  paths : List PathSpec
  zones : List ZoneSpec
  deriving DecidableEq, Repr

/-- The description, from its fixed part and the bytes after it (Table 57, offsets less 8). -/
def parseDescription (f : FixedPart) (bs : List Byte) : Description :=
  let p := 2 * f.channelCount
  let z := p + 9 * f.pathCount
  { fixed := f
    channels := (List.range f.channelCount).map fun i => { chan := u8 bs (2 * i), threshold := u8 bs (2 * i + 1) }
    paths := (List.range f.pathCount).map fun i =>
      let o := p + 9 * i
      { endA := u8 bs o, endB := u8 bs (o + 1), length := u16 bs (o + 2), velocity := u16 bs (o + 4), margin := u16 bs (o + 6)
        guard := u8 bs (o + 8) }
    zones := (List.range f.zoneCount).map fun i =>
      let o := z + 9 * i
      { path := u8 bs o, cavity := u8 bs (o + 1), start := u16 bs (o + 2), stop := u16 bs (o + 4), floor := u8 bs (o + 6)
        label := u16 bs (o + 7) } }

/-- The index of the first entry that fails a check which sees the entries before it. -/
def firstBad {α : Type} (bad : List α → α → Bool) : List α → List α → Nat → Option Nat
  | _, [], _ => none
  | before, x :: xs, i => if bad before x then some i else firstBad bad (before ++ [x]) xs (i + 1)

/-- An item of Table 35 that fails, with the index of its first failing entry. -/
def failing {α : Type} (item : Nat) (bad : List α → α → Bool) (entries : List α) : Option (Nat × Nat) :=
  (firstBad bad [] entries 0).map fun i => (item, i)

/-- An item of Table 35 of the fixed part that fails, with index 0. -/
def failingFixed (item : Nat) (bad : Bool) : Option (Nat × Nat) := if bad then some (item, 0) else none

/-- A zone is out of its path's bounds (item 13). -/
def zoneOutOfBounds (paths : List PathSpec) (z : ZoneSpec) : Bool :=
  decide (z.stop < z.start) || (match paths[z.path]? with | none => true | some p => decide (p.length < z.stop))

/-- Two zones share a millimetre of one path (item 16). -/
def zonesShare (a b : ZoneSpec) : Bool := decide (a.path = b.path) && decide (a.start ≤ b.stop) && decide (b.start ≤ a.stop)

/-- The first failing item of Table 35 with its failing index, none for a valid description (R112). -/
def validate (v : Variant) (d : Description) : Option (Nat × Nat) :=
  let f := d.fixed
  failingFixed 1 (!within 1 (channelCount v) f.channelCount)
  <|> failingFixed 2 (!within 1 (pathLimit v) f.pathCount)
  <|> failingFixed 3 (!within 1 (zoneLimit v) f.zoneCount)
  <|> failingFixed 4 (decide (3 < f.settleCode))
  <|> failing 5 (fun _ c => decide (channelCount v ≤ c.chan)) d.channels
  <|> failing 6 (fun before c => before.any fun e => decide (e.chan = c.chan)) d.channels
  <|> failing 7 (fun _ c => !within 20 99 c.threshold) d.channels
  <|> failing 8 (fun _ p => !(d.channels.any fun c => decide (c.chan = p.endA)) || !(d.channels.any fun c => decide (c.chan = p.endB))) d.paths
  <|> failing 9 (fun _ p => decide (p.endA = p.endB)) d.paths
  <|> failing 10 (fun _ p => !within 50 4000 p.length) d.paths
  <|> failing 11 (fun _ p => !within 100 1000 p.velocity) d.paths
  <|> failing 12 (fun _ z => decide (f.pathCount ≤ z.path)) d.zones
  <|> failing 13 (fun _ z => zoneOutOfBounds d.paths z) d.zones
  <|> failing 14 (fun _ z => decide (100 < z.floor)) d.zones
  <|> failing 15 (fun _ z => decide (63 < z.cavity)) d.zones
  <|> failing 16 (fun before z => before.any fun e => zonesShare e z) d.zones

/-- The context part of a record as read. -/
structure ContextRead where
  formatTag : Nat
  saveCount : Word
  cyclesWatched : Nat
  zoneCount : Nat
  pathCount : Nat
  savedBy : Byte
  zones : List ContextZone
  velocities : List (Option Nat)
  deriving DecidableEq, Repr

/-- The part's context format tag (Table 57). -/
def formatTag : Nat := 0x00020001

/-- A verdict code; a code that is not one of the four is SOUND (R84). -/
def verdictOf : Nat → Verdict
  | 1 => .watch
  | 2 => .suspect
  | 3 => .cracked
  | _ => .sound

/-- The context part, for a description with these counts (Table 57). A present byte that is not 0 is set (log entry 37). -/
def parseContext (paths zones : Nat) (bs : List Byte) : ContextRead :=
  { formatTag := u32 bs 0, saveCount := w32 bs 4, cyclesWatched := u32 bs 8, zoneCount := u8 bs 12, pathCount := u8 bs 13
    savedBy := bs.getD 14 0
    zones := (List.range zones).map fun i =>
      let o := 15 + 13 * i
      { score := u16 bs o, verdict := verdictOf (u8 bs (o + 2)), run := u8 bs (o + 3)
        lastActive := if u8 bs (o + 4) = 0 then none else some (u32 bs (o + 5)), lifetime := u32 bs (o + 9) }
    velocities := (List.range paths).map fun i =>
      let o := 15 + 13 * zones + 3 * i
      if u8 bs o = 0 then none else some (u16 bs (o + 1)) }

end Sys2Proof.Machine
end

