-- ==== Sys2Proof/Machine/Flags.lean ====
section
/-! DEFINITION. Every status bit, flag and output level: verdict levels, blind marks, cavity and mould verdicts, the registers as
they read, the journal flags and the notice mask, the attention level, and the pins. -/

namespace Sys2Proof.Machine

open Sys2Proof

/-! ## Verdicts (R91, R97) -/

/-- The level of a verdict: SOUND 0, WATCH 1, SUSPECT 2, CRACKED 3 (R91). -/
def Verdict.level : Verdict → Nat
  | .sound => 0
  | .watch => 1
  | .suspect => 2
  | .cracked => 3

/-- The verdict of a level (R91). -/
def verdictOfLevel : Nat → Verdict
  | 0 => .sound
  | 1 => .watch
  | 2 => .suspect
  | _ => .cracked

/-- The worse of two verdicts. -/
def worse (a b : Verdict) : Verdict := if a.level < b.level then b else a

/-- The worst verdict of a list, SOUND for none (R97). -/
def worst (vs : List Verdict) : Verdict := vs.foldl worse .sound

/-- The verdict of a cavity (R97). -/
def cavityVerdict (s : State) (n : Nat) : Verdict :=
  worst (((zonesOf s).filter fun z => decide (z.cavity = n)).map (·.verdict))

/-- The 64 cavity verdicts (R97). -/
def cavityVerdicts (s : State) : List Verdict := (List.range 64).map (cavityVerdict s)

/-- The mould verdict, none while no zone table stands (R97). -/
def mouldVerdict (s : State) : Option Verdict := s.evid.tables.map fun t => worst (t.zones.map (·.verdict))

/-- The blind mark of a zone (R87): a channel at an end of its path is not LIVE. -/
def zoneBlind (s : State) (z : ZoneEntry) : Bool :=
  match (pathsOf s)[z.path]? with
  | none => true
  | some p => !(live s p.endA && live s p.endB)

/-! ## Cycle record flags and the notice mask (Table 56, R166, R171) -/

/-- One bit of a 16-bit field. -/
def flagBit (i : Nat) : Half := BitVec.ofNat 16 (2 ^ i)

/-- Bit 0. -/
def flagVerdictRose : Half := flagBit 0

/-- Bit 1. -/
def flagStopLatched : Half := flagBit 1

/-- Bit 5. -/
def flagStall : Half := flagBit 5

/-- Bit 6. -/
def flagProgrammeTaken : Half := flagBit 6

/-- Bit 7. -/
def flagFieldsHeld : Half := flagBit 7

/-- Bit 8. -/
def flagTestDone : Half := flagBit 8

/-- Bit 9. -/
def flagWrapped : Half := flagBit 9

/-- A flag when a mark is set. -/
def flagIf (b : Bool) (f : Half) : Half := if b then f else 0

/-- The bit at which a condition meets the notice mask (R171). -/
def Condition.mask : Condition → Half
  | .stall => flagBit 5
  | .channelFault => flagBit 2
  | .clampOpen => flagBit 3
  | .mouldPulled => flagBit 4
  | .clampLocked => flagBit 10

/-- The flag a condition leaves in the record of its cycle (R168, R171): STALL comes from the closing summary, CLAMP_LOCKED has none. -/
def Condition.accrued : Condition → Half
  | .channelFault => flagBit 2
  | .clampOpen => flagBit 3
  | .mouldPulled => flagBit 4
  | .stall | .clampLocked => 0

/-- Flags meet the notice mask (R166). -/
def noticed (mask flags : Half) : Bool := decide (mask &&& flags ≠ 0)

/-! ## Attention (R166) -/

/-- A noticed record is unread. -/
def noticeUnread (x : Exchange) : Bool :=
  match x.lastNoticed, x.consumedJournal with
  | some n, some c => within 1 x.geometry.journalSize (diff32 n c)
  | _, _ => false

/-- A notified order is unreturned. -/
def anyAnswered (x : Exchange) : Bool := x.cells.toList.any fun e => decide (e = .answered)

/-- The attention level as R166 gives it. -/
def attnLevel (x : Exchange) : Bool := decide (x.area = .active) && (noticeUnread x || anyAnswered x)

/-- The attention level evaluated afresh (R166). -/
def evaluateAttn : State → State := State.onXu fun x => { x with attn := attnLevel x }

/-! ## Registers as they read (R148, Table 51) -/

/-- The code of an area state. -/
def AreaState.code : AreaState → Nat
  | .unconfigured => 0
  | .headerInvalid => 1
  | .active => 2
  | .areaFault => 3

/-- The code of a mould state. -/
def MouldState.code : MouldState → Nat
  | .empty => 0
  | .mounting => 1
  | .watching => 2
  | .degraded => 3
  | .suspended => 4
  | .dismounting => 5

/-- The code of the press state. -/
def Press.code : Press → Nat
  | .stopped => 0
  | .running => 1

/-- The code of a channel state (zone mirror). -/
def ChannelState.code : ChannelState → Nat
  | .off => 0
  | .settling => 1
  | .live => 2
  | .fault => 3
  | .pulsing => 4

/-- A mark as a number. -/
def bit (b : Bool) : Nat := if b then 1 else 0

/-- XSTAT (Table 51). -/
def xstat (s : State) : Word :=
  BitVec.ofNat 32 (s.xu.area.code + 16 * s.mould.state.code + 128 * s.timer.press.code + 256 * bit s.evid.stopLatch
    + 512 * bit s.xu.attn + 1024 * bit (!s.tester.isEmpty) + 65536 * s.xu.checkCode)

/-- XIDENT (Table 51). -/
def xident (s : State) : Word :=
  match s.variant with
  | .omplar1640 => 0x0110
  | .omplar0840 => 0x0108

/-- A register as it reads (R148). -/
def readRegister (s : State) : Register → Word
  | .xbaseL => s.xu.baseL
  | .xbaseH => s.xu.baseH
  | .xctl => BitVec.ofNat 32 (bit s.xu.en)
  | .xlook => 0
  | .xstat => xstat s
  | .xident => xident s

/-! ## Pins (R98, R99, R177, R178, R180) -/

/-- STOPREQ is asserted. Both 24 V outputs are off while the supplies are out of range (R177). -/
def stopreq (s : State) : Bool := s.board.supplyOk && s.evid.stopLatch

/-- LAMP is on (R99). -/
def lampOn (s : State) : Bool :=
  s.board.supplyOk &&
    match mouldVerdict s with
    | some .cracked => true
    | some .suspect => (match s.evid.blink with | some b => b.on | none => false)
    | _ => false

/-- ATTN# pulls its line low (R178). -/
def attnAsserted (s : State) : Bool := s.xu.attn

/-- Bias is applied to a channel's wire (R21). -/
def biasOn (s : State) (c : ChannelNo) : Bool :=
  match (s.channel c).state with
  | .settling | .live | .pulsing => true
  | .off | .fault => false

/-- The voltage a channel drives onto its wire: 50 V at level 0, 50 V more per level (R180). -/
def driveVolts (s : State) (c : ChannelNo) : Nat :=
  match (s.channel c).drive with
  | none => 0
  | some d => 50 * (d.level + 1)

end Sys2Proof.Machine
end

