-- ==== Sys2Proof/Machine/Layout.lean ====
section
/-! DEFINITION. The bytes the part writes: records, mirror, results, contexts, echo block and capability page (Section 8.10), and
the writes of each job in their order (R165). A byte or bit that the layout leaves out is a free value (log entry 9). -/

namespace Sys2Proof.Machine

open Sys2Proof

/-- A byte whose bits under `mask` the layout defines; the others are free. -/
def mixed (seed offset : Nat) (mask value : Byte) : Byte := (value &&& mask) ||| (Config.freeByte seed offset &&& ~~~mask)

/-- Bytes the layout leaves out. -/
def freeBytes (seed offset count : Nat) : List Byte := (List.range count).map fun i => Config.freeByte seed (offset + i)

/-- Bytes written 0. -/
def zeroBytes (count : Nat) : List Byte := List.replicate count 0

/-! ## Offsets of the area map (Table 52) -/

/-- Cell k of the order board. -/
def cellOffset (k : CellNo) : Nat := 0x100 + 64 * k.val

/-- The echo block. -/
def echoOffset : Nat := 0x1800

/-- The capability page. -/
def capabilityOffset : Nat := 0x1C00

/-- The zone mirror. -/
def mirrorOffset : Nat := 0x2000

/-! ## Journal records (Table 56) -/

/-- The code of a close kind. -/
def CloseKind.code : CloseKind → Nat
  | .normal => 0
  | .long => 1
  | .preamble => 2

/-- The code of a condition. -/
def Condition.code : Condition → Nat
  | .stall => 1
  | .channelFault => 2
  | .clampOpen => 3
  | .clampLocked => 4
  | .mouldPulled => 5

/-- Which captures are present: bits 3, 2, 1, 0 for FEED, VIB, TAMP, STRIP (log entry 38). -/
def presentBits (c : PerPhase (Option Word)) : Nat :=
  8 * bit c.feed.isSome + 4 * bit c.vib.isSome + 2 * bit c.tamp.isSome + bit c.strip.isSome

/-- A capture's value, 0 when absent (Table 5). -/
def captureBytes (c : Option Word) : List Byte := bytesWord (c.getD 0)

/-- A listed verdict change. -/
def changeBytes (v : VerdictChange) : List Byte :=
  byteOf v.zone :: (bytes16 v.label ++ [byteOf (v.old.level + 16 * v.new.level)])

/-- A cycle record from 0x04 on. -/
def cycleBytes (seed : Nat) (r : CycleRecord) : List Byte :=
  let t := r.tallies
  [1, byteOf r.kind.code, byteOf r.mouldState.code, Config.freeByte seed 0x07]
    ++ bytesWord r.first ++ bytesWord r.last ++ bytes32 r.coalesced ++ bytesWord r.length
    ++ [byteOf r.flags.toNat, mixed seed 0x19 0x03 (byteOf (r.flags.toNat / 256)), mixed seed 0x1A 0x0F (byteOf (presentBits r.captures)),
        byteOf r.changes.length]
    ++ bytesWord r.identity
    ++ captureBytes r.captures.feed ++ captureBytes r.captures.vib ++ captureBytes r.captures.tamp ++ captureBytes r.captures.strip
    ++ [byteOf r.extras.feed, byteOf r.extras.vib, byteOf r.extras.tamp, byteOf r.extras.strip]
    ++ bytes32 t.delivered ++ bytes32 t.rejected ++ bytes32 t.orphan
    ++ bytes16 t.empty ++ bytes16 t.continuous ++ bytes16 t.ungated ++ bytes16 t.unlocated ++ bytes16 t.unzoned ++ bytes16 t.located
    ++ bytes16 t.forced ++ bytes16 t.cut ++ bytes16 r.notListed ++ bytes16 r.overflow
    ++ (r.changes.map changeBytes).flatten ++ freeBytes seed (0x54 + 4 * r.changes.length) (32 - 4 * r.changes.length)
    ++ zeroBytes 12

/-- A condition record from 0x04 on. -/
def conditionBytes (seed : Nat) (r : ConditionRecord) : List Byte :=
  [2, byteOf r.condition.code, (match r.chan with | none => 0xFF | some c => byteOf c.val), Config.freeByte seed 0x07]
    ++ bytesWord r.cycle ++ bytesWord r.tick ++ zeroBytes 112

/-! ## Located-event record -/

/-- The code of a close cause. -/
def CloseCause.code : CloseCause → Nat
  | .expiry => 0
  | .forced => 1
  | .cut => 2

/-- The half-byte of the i-th member: free past the last (log entry 9). -/
def memberByte (seed : Nat) (ms : List ChannelNo) (j : Nat) : Byte :=
  match ms[2 * j]?, ms[2 * j + 1]? with
  | some a, some b => byteOf (a.val + 16 * b.val)
  | some a, none => mixed seed (0x18 + j) 0x0F (byteOf a.val)
  | none, _ => Config.freeByte seed (0x18 + j)

/-- A located-event record from 0x04 on. -/
def locatedBytes (seed : Nat) (r : LocatedOffer) : List Byte :=
  let cls := match r.zone with | some _ => 1 | none => 2
  bytesWord r.cycle ++ bytesWord r.arrival
    ++ [mixed seed 0x0C 0x0F (byteOf (cls + 4 * r.cause.code)), byteOf r.path]
    ++ (match r.zone with | some (z, _, v) => [byteOf z, byteOf v.level] | none => [0xFF, 0xFF])
    ++ bytes16 r.position
    ++ (match r.zone with | some (_, l, _) => bytes16 l | none => [0, 0])
    ++ bytes16 r.increment
    ++ [byteOf r.peak, byteOf (r.gate + 16 * (r.members.length - 1))]
    ++ (List.range 8).map (memberByte seed r.members)

/-! ## Zone mirror (R164, R165) -/

/-- A zone's entry; the blind byte defines bit 0. -/
def mirrorZoneBytes (seed i : Nat) (z : MirrorZone) : List Byte :=
  bytes16 z.score ++ [byteOf z.verdict.level, byteOf z.run, mixed seed (0x064 + 8 * i) 0x01 (byteOf (bit z.blind)), byteOf z.events]
    ++ bytes16 z.label

/-- The entries of the zones from index `i` on. -/
def mirrorZones (seed : Nat) : Nat → List MirrorZone → List Byte
  | _, [] => []
  | i, z :: zs => mirrorZoneBytes seed i z ++ mirrorZones seed (i + 1) zs

/-- The mirror's body, from 0x004 on. -/
def mirrorBody (seed : Nat) (m : MirrorCopy) : List Byte :=
  bytesWord m.cycle ++ bytesWord m.identity
    ++ [byteOf m.mouldState.code, byteOf m.press.code, byteOf m.zones.length, (match m.mouldVerdict with | none => 0xFF | some v => byteOf v.level)]
    ++ m.channels.map (fun c => byteOf c.code) ++ zeroBytes (16 - m.channels.length)
    ++ m.cavities.map (fun v => byteOf v.level)
    ++ mirrorZones seed 0 m.zones

/-! ## Order results (Table 55) -/

/-- The code of a bad argument. -/
def BadArgument.code : BadArgument → Nat
  | .channel => 1
  | .amplitude => 2
  | .level => 3
  | .attempts => 4
  | .delay => 5
  | .noPartner => 6
  | .queueFull => 7
  | .zone => 8

/-- The code of a fresh reason. -/
def FreshReason.code : FreshReason → Nat
  | .none => 0
  | .flag => 1
  | .counts => 2
  | .format => 3

/-- The result code. -/
def OrderResult.code : OrderResult → Nat
  | .ok | .mountOk _ _ => 1
  | .okFresh _ => 2
  | .nothingSaved => 3
  | .clampTimeout => 4
  | .cancelled => 5
  | .test .ok _ _ _ => 1
  | .test .aborted _ _ _ => 6
  | .test .sourceFault _ _ _ => 7
  | .badKind => 0x81
  | .noMould => 0x82
  | .mounted => 0x83
  | .badDescription _ _ => 0x84
  | .badArgument _ => 0x85
  | .areaBounds => 0x86
  | .notSupported => 0x87

/-- The result is a refusal: its state word becomes REFUSED (R160). -/
def OrderResult.refusal (r : OrderResult) : Bool := decide (0x80 < r.code)

/-- The detail byte: its defined bits and their value. -/
def OrderResult.detail : OrderResult → Byte × Byte
  | .okFresh reason => (0xFF, byteOf reason.code)
  | .test _ used level _ => (0x7F, byteOf (used % 16 + 16 * (level % 8)))
  | .badDescription item _ => (0xFF, byteOf item)
  | .badArgument which => (0xFF, byteOf which.code)
  | _ => (0, 0)

/-- The code of a partner outcome. -/
def PartnerOutcome.code : PartnerOutcome → Nat
  | .pass => 0
  | .weak => 1
  | .dead => 2
  | .skipped => 3

/-- The code of a calibration result. -/
def Calibration.code : Calibration → Nat
  | .ok => 1
  | .range => 2
  | .invalid => 3

/-- A partner entry of a TEST_SENSOR payload, with the defined bits of each byte. A partner of an ended test has an outcome. -/
def partnerBytes (p : Partner) : List (Byte × Byte) :=
  let outcome := match p.outcome with | some o => o.code | none => 2
  let cal := match p.heard with | some h => h.calibration.code | none => 0
  let v := match p.heard with | some h => min 1023 (h.velocity.getD 0) | none => 0
  let transit := match p.heard with | some h => h.transit | none => 0xFFFFFF
  let peak := match p.heard with | some h => h.peak | none => 0xFF
  [(0xFF, byteOf (128 + 64 * bit p.applied + 16 * outcome + p.chan.val)),
   (0x7F, byteOf (p.path % 32 + 32 * cal)),
   (0xFF, byteOf v),
   (0xF3, byteOf (v / 256 + 16 * (p.heardOn.getD 0))),
   (0xFF, byteOf transit), (0xFF, byteOf (transit / 256)), (0xFF, byteOf (transit / 65536)),
   (0xFF, byteOf peak)]

/-- The payload's defined bytes, from its start; the bytes after them are free. -/
def OrderResult.payload : OrderResult → List (Byte × Byte)
  | .mountOk savedBy cycles => (0xFF, savedBy) :: (bytes32 cycles).map fun b => (0xFF, b)
  | .badDescription _ index => [(0xFF, byteOf index)]
  | .test _ _ _ ps => (ps.map partnerBytes).flatten ++ List.replicate (48 - 8 * ps.length) (0xFF, 0)
  | _ => []

/-- Bytes given as defined bits and values, from an offset on. -/
def mixedBytes (seed : Nat) : Nat → List (Byte × Byte) → List Byte
  | _, [] => []
  | o, (m, v) :: bs => mixed seed o m v :: mixedBytes seed (o + 1) bs

/-- The result fields of a cell: code, detail and payload, from 0x0E on (R160). -/
def resultBytes (seed : Nat) (r : OrderResult) : List Byte :=
  byteOf r.code :: mixed seed 0x0F r.detail.1 r.detail.2
    :: (mixedBytes seed 0x10 r.payload ++ freeBytes seed (0x10 + r.payload.length) (48 - r.payload.length))

/-! ## Context (Tables 37 and 57) -/

/-- The code of a save's reason (Table 55). -/
def SavedBy.code : SavedBy → Nat
  | .checkpoint => 1
  | .dismount => 2
  | .unplanned => 3

/-- A zone's context; the last-active value under a clear present flag is free. -/
def contextZoneBytes (seed offset : Nat) (z : ContextZone) : List Byte :=
  bytes16 z.score ++ [byteOf z.verdict.level, byteOf z.run]
    ++ (match z.lastActive with | some n => 1 :: bytes32 n | none => 0 :: freeBytes seed (offset + 5) 4)
    ++ bytes32 z.lifetime

/-- The zones' contexts from an offset on. -/
def contextZones (seed : Nat) : Nat → List ContextZone → List Byte
  | _, [] => []
  | o, z :: zs => contextZoneBytes seed o z ++ contextZones seed (o + 13) zs

/-- The paths' velocities from an offset on; the value under a clear present flag is free. -/
def contextVelocities (seed : Nat) : Nat → List (Option Nat) → List Byte
  | _, [] => []
  | o, v :: vs =>
    (match v with | some n => 1 :: bytes16 n | none => 0 :: freeBytes seed (o + 1) 2) ++ contextVelocities seed (o + 3) vs

/-- The context's fields after its format tag. -/
def contextFields (seed : Nat) (c : ContextCopy) : List Byte :=
  bytesWord c.saveCount ++ bytes32 c.cyclesWatched
    ++ [byteOf c.zones.length, byteOf c.velocities.length, byteOf c.savedBy.code]
    ++ contextZones seed 15 c.zones ++ contextVelocities seed (15 + 13 * c.zones.length) c.velocities

/-! ## Echo block and capability page (Table 52, R150, R157) -/

/-- The code of an edge selection. -/
def EdgeSel.code : EdgeSel → Nat
  | .none => 0
  | .rising => 1
  | .falling => 2
  | .both => 3

/-- The code of an anchor. -/
def Anchor.code : Anchor → Nat
  | .none => 0
  | .cyc => 1
  | .phase .feed => 2
  | .phase .vib => 3
  | .phase .tamp => 4
  | .phase .strip => 5

/-- A window of the programme page at its offset. -/
def pageWindowBytes (seed offset : Nat) (w : WindowDef) : List Byte :=
  [byteOf w.anchor.code, byteOf w.weight, byteOf w.raise, Config.freeByte seed (offset + 3)] ++ bytes32 w.offset ++ bytes32 w.length
    ++ freeBytes seed (offset + 12) 4

/-- A programme in the layout of the programme page (Table 54). -/
def programmeBytes (seed : Nat) (p : Programme) : List Byte :=
  let e := p.timing.phaseEdge
  let w := p.timing.windows
  [byteOf p.timing.cycEdge.code, byteOf e.feed.code, byteOf e.vib.code, byteOf e.tamp.code, byteOf e.strip.code]
    ++ freeBytes seed 5 3 ++ bytes32 p.timing.stallLimit ++ freeBytes seed 0x0C 4
    ++ pageWindowBytes seed 0x10 w[0] ++ pageWindowBytes seed 0x20 w[1] ++ pageWindowBytes seed 0x30 w[2] ++ pageWindowBytes seed 0x40 w[3]
    ++ pageWindowBytes seed 0x50 w[4] ++ pageWindowBytes seed 0x60 w[5] ++ pageWindowBytes seed 0x70 w[6] ++ pageWindowBytes seed 0x80 w[7]
    ++ bytes16 p.hitDef.hdt ++ bytes16 p.hitDef.hlt ++ bytes16 p.hitDef.maxDuration
    ++ [byteOf p.hitDef.minCounts, byteOf p.evidence.decay]
    ++ bytes16 p.evidence.tWatch ++ bytes16 p.evidence.tSuspect ++ bytes16 p.evidence.tCrack ++ bytes16 p.evidence.hysteresis
    ++ [byteOf p.evidence.suspectRun, byteOf (bit p.evidence.stopOnCrack), byteOf p.mountTimeout, byteOf p.listSelection, byteOf p.listLevel]
    ++ freeBytes seed 0xA5 3 ++ bytes16 p.checkpointInterval ++ bytes16 p.noticeMask.toNat

/-- The echo block (Table 52). -/
def echoBytes (seed : Nat) (generation : Word) (heldN firstHeldN : Nat) (p : Programme) : List Byte :=
  bytesWord generation ++ [byteOf heldN, byteOf firstHeldN, 0, 0] ++ programmeBytes seed p

/-- The capability page (Section 8.10). -/
def capabilityBytes : Variant → List Byte
  | .omplar1640 => [6, 0x12, 0x22, 0x32, 0x48, 0x58, 0x60, 0, 0]
  | .omplar0840 => [5, 0x11, 0x21, 0x31, 0x48, 0x58, 0, 0, 0]

/-! ## The writes of a job (R165) -/

/-- The writes of a job, in the order they are issued. A result job's compare-and-swap follows its one write. -/
def jobWrites (j : Job) : List BusWrite :=
  match j.body with
  | .cycle slot seq _ r => [⟨addrAt j.base (slot + 4), cycleBytes j.seed r⟩, ⟨addrAt j.base slot, bytesWord seq⟩]
  | .condition slot seq _ r => [⟨addrAt j.base (slot + 4), conditionBytes j.seed r⟩, ⟨addrAt j.base slot, bytesWord seq⟩]
  | .located slot seq r => [⟨addrAt j.base (slot + 4), locatedBytes j.seed r⟩, ⟨addrAt j.base slot, bytesWord seq⟩]
  | .mirror m =>
    [⟨addrAt j.base mirrorOffset, bytesWord m.generation⟩, ⟨addrAt j.base (mirrorOffset + 4), mirrorBody j.seed m⟩,
     ⟨addrAt j.base (mirrorOffset + 0xFFC), bytesWord m.generation⟩]
  | .result k _ _ r => [⟨addrAt j.base (cellOffset k + 0x0E), resultBytes j.seed r⟩]
  | .save x c => [⟨addrAt j.base (x + 4), contextFields j.seed c⟩, ⟨addrAt j.base x, bytes32 formatTag⟩]

/-- The state word a result job's compare-and-swap writes (R160). -/
def resultWord (r : OrderResult) : Word := if r.refusal then wordRefused else wordDone

end Sys2Proof.Machine
end

