-- ==== Sys2Proof/Machine/Exchange.lean ====
section
/-! DEFINITION. What the exchange unit does with the requests of the other blocks: write jobs, the zone mirror, order results,
conditions, located-event offers and cycle records (R158 to R175). -/

namespace Sys2Proof.Machine

open Sys2Proof

/-! ## The write-job queue (R162) -/

/-- The queue's capacity, counting the job in issue. -/
def queueCapacity : Nat := 16

/-- The queue has room. -/
def queueRoom (s : State) : Bool := decide (s.xu.queue.length < queueCapacity)

/-- A job joins the back of the queue; on an empty queue it is issued at once (R162). -/
def addJob (b : JobBody) (s : State) : State :=
  { s with
    freeNext := s.freeNext + 1
    xu := { s.xu with
      queue := s.xu.queue ++ [{ base := baseOf s, seed := s.freeNext, body := b }]
      issue := if s.xu.queue.isEmpty then some { accepted := 0, onBus := true } else s.xu.issue } }

/-- The next job is issued, while ACTIVE, when none is in issue (R162, R152). -/
def issueNext (s : State) : State :=
  if active s && decide (s.xu.issue = none) && !s.xu.queue.isEmpty then
    s.onXu fun x => { x with issue := some { accepted := 0, onBus := true } }
  else s

/-! ## Rings (R167) -/

/-- A ring's unread count (R167). -/
def unreadCount (next consumed : Word) (size : Nat) : Nat :=
  let n := diff32 (next - 1) consumed
  if size < n then 0 else n

/-- A ring has room: its unread count is below its size (R167). Without sequences no record can be created. -/
def ringRoom (next consumed : Option Word) (size : Nat) : Bool :=
  match next, consumed with
  | some n, some c => decide (unreadCount n c size < size)
  | _, _ => false

/-- The journal has room. -/
def journalRoom (s : State) : Bool := ringRoom s.xu.nextJournal s.xu.consumedJournal s.xu.geometry.journalSize

/-- The located-event list has room. -/
def locatedRoom (s : State) : Bool := ringRoom s.xu.nextLocated s.xu.consumedLocated s.xu.geometry.listSize

/-- The offset of the journal slot of a sequence number (R167). -/
def journalSlot (g : Geometry) (seq : Word) : Nat := g.journalOffset + seq.toNat % g.journalSize * 128

/-- The offset of the list slot of a sequence number (R167). -/
def listSlot (g : Geometry) (seq : Word) : Nat := g.listOffset + seq.toNat % g.listSize * 32

/-- The next journal sequence. It has a value whenever the journal has room. -/
def nextSeq (s : State) : Word := s.xu.nextJournal.getD 0

/-- The next journal sequence rises by one (R167). -/
def bumpJournal : State → State := State.onXu fun x => { x with nextJournal := x.nextJournal.map (· + 1) }

/-- The next located-event sequence rises by one (R167). -/
def bumpLocated : State → State := State.onXu fun x => { x with nextLocated := x.nextLocated.map (· + 1) }

/-- A cycle record job takes the next sequence at its creation (R167). -/
def createCycleJob (r : CycleRecord) (s : State) : State :=
  let seq := nextSeq s
  bumpJournal (addJob (.cycle (journalSlot s.xu.geometry seq) seq (noticed s.xu.noticeMask r.flags) r) s)

/-- A condition record job takes the next sequence at its creation (R167, R171). -/
def createConditionJob (r : ConditionRecord) (s : State) : State :=
  let seq := nextSeq s
  bumpJournal (addJob (.condition (journalSlot s.xu.geometry seq) seq (noticed s.xu.noticeMask r.condition.mask) r) s)

/-- A located-event record job takes the next sequence at its creation (R167, R174). -/
def createLocatedJob (r : LocatedOffer) (s : State) : State :=
  let seq := s.xu.nextLocated.getD 0
  bumpLocated (addJob (.located (listSlot s.xu.geometry seq) seq r) s)

/-! ## Zone mirror (R164) -/

/-- A zone's entry in the mirror. -/
def mirrorZone (s : State) (z : ZoneEntry) : MirrorZone :=
  { score := z.score, verdict := z.verdict, run := z.run, blind := zoneBlind s z, events := z.tallyEvents, label := z.label }

/-- The contents of a mirror made now, with this generation (R164). -/
def mirrorCopy (generation : Word) (s : State) : MirrorCopy :=
  { generation := generation
    cycle := s.timer.number
    identity := identityWord s
    mouldState := s.mould.state
    press := s.timer.press
    channels := (allChannels.filter (fitted s)).map fun c => (s.channel c).state
    mouldVerdict := mouldVerdict s
    cavities := cavityVerdicts s
    zones := (zonesOf s).map (mirrorZone s) }

/-- A mirror job is asked for: created with a new generation, or skipped (R164, Table 49). -/
def requestMirror (s : State) : State :=
  if active s && queueRoom s then
    let g := s.xu.mirrorGeneration + 1
    addJob (.mirror (mirrorCopy g s)) (s.onXu fun x => { x with mirrorGeneration := g })
  else s

/-! ## Order results (R159, R160) -/

/-- The notify flag of an entry's order; clear until its cell has been read. -/
def notifyOf : Option OrderHead → Bool
  | none => false
  | some h => h.notify

/-- A result going on (R160): discarded outside ACTIVE, a job when there is room, RESULT_WAITING when the queue is full. -/
def resultGoesOn (k : CellNo) (take : Word) (head : Option OrderHead) (r : OrderResult) (s : State) : State :=
  if !active s then s.putCell k .free
  else if queueRoom s then addJob (.result k take (notifyOf head) r) s
  else s.putCell k (.resultWaiting take head r)

/-- An owner hands back a result (R159): it goes on when its take number matches an IN_HAND entry, and is discarded otherwise. -/
def giveResult (o : OrderRef) (r : OrderResult) (s : State) : State :=
  match s.xu.cells[o.cell] with
  | .inHand take head => if take = o.take then resultGoesOn o.cell take head r s else s
  | _ => s

/-- The RESULT_WAITING entries get their jobs, in cell order, while the queue has room (R163). -/
def placeWaiting (s : State) : State :=
  allCells.foldl
    (fun s k =>
      match s.xu.cells[k] with
      | .resultWaiting take head r =>
        if active s && queueRoom s then addJob (.result k take (notifyOf head) r) (s.putCell k (.inHand take head)) else s
      | _ => s)
    s

/-! ## Accruals and conditions (R168, R171) -/

/-- Flags accrue to the record of the open cycle (R168). -/
def accrue (f : Half) : State → State :=
  State.onXu fun x => { x with accruals := { x.accruals with flags := x.accruals.flags ||| f } }

/-- An offer is counted as not listed (R174). -/
def countNotListed : State → State :=
  State.onXu fun x => { x with accruals := { x.accruals with notListed := satAdd top16 x.accruals.notListed 1 } }

/-- A condition is handed on (R171): its flag accrues, and its record is created when the area is ACTIVE, no carry record is held
and there is room; otherwise it is dropped. -/
def handCondition (k : Condition) (chan : Option ChannelNo) (tick : Word) (s : State) : State :=
  let s := accrue k.accrued s
  if active s && decide (s.xu.carry = none) && journalRoom s && queueRoom s then
    createConditionJob { condition := k, chan := chan, cycle := s.timer.number, tick := tick } s
  else s

/-! ## Located-event offers (R174) -/

/-- The offer is selected by the list selection in force. A header's list size is in force from the
enable that read it to the next EN clear, whatever the area state (R150, R175; log entry 39). -/
def offerSelected (x : Exchange) (r : LocatedOffer) : Bool :=
  (decide (0 < x.geometry.listSize) || decide (x.nextLocated = none)) &&
    match r.zone with
    | some (_, _, v) =>
      decide (x.listSelection = 1 ∧ x.listLevel ≤ v.level) || decide (x.listSelection = 2) || decide (x.listSelection = 3)
    | none => decide (x.listSelection = 3)

/-- A LOCATED or UNZONED event's offer: listed, counted as not listed, or discarded (R174). -/
def offerLocated (r : LocatedOffer) (s : State) : State :=
  if offerSelected s.xu r then
    if active s && locatedRoom s && queueRoom s then createLocatedJob r s else countNotListed s
  else s

/-! ## Cycle records (R168 to R170) -/

/-- What the exchange unit holds of a closing cycle when it forms the record (R168). -/
structure CloseFacts where
  number : Word
  kind : CloseKind
  length : Word
  wrapped : Bool
  stalled : Bool
  captures : PerPhase (Option Word)
  extras : PerPhase Nat
  mouldState : MouldState
  identity : Word
  tallies : Tallies
  changes : List VerdictChange
  rose : Bool
  latched : Bool
  deriving DecidableEq, Repr

/-- The class, FORCED and CUT counts in their 16-bit fields (R168). -/
def fieldTallies (t : Tallies) : Tallies :=
  { t with
    empty := min top16 t.empty, continuous := min top16 t.continuous, ungated := min top16 t.ungated
    unlocated := min top16 t.unlocated, unzoned := min top16 t.unzoned, located := min top16 t.located
    forced := min top16 t.forced, cut := min top16 t.cut }

/-- The cycle record of a close (Table 58). -/
def formRecord (f : CloseFacts) (a : Accruals) : CycleRecord :=
  { first := f.number, last := f.number, coalesced := 1, kind := f.kind, length := f.length, captures := f.captures
    extras := f.extras, mouldState := f.mouldState, identity := f.identity
    flags := a.flags ||| flagIf f.rose flagVerdictRose ||| flagIf f.latched flagStopLatched ||| flagIf f.stalled flagStall
      ||| flagIf f.wrapped flagWrapped
    tallies := fieldTallies f.tallies
    notListed := a.notListed
    changes := f.changes.take 8
    overflow := min top16 (f.changes.length - 8) }

/-- The tallies of two records summed (Table 59). -/
def mergeTallies (a b : Tallies) : Tallies :=
  { delivered := satAdd top32 a.delivered b.delivered, rejected := satAdd top32 a.rejected b.rejected
    orphan := satAdd top32 a.orphan b.orphan, empty := satAdd top16 a.empty b.empty
    continuous := satAdd top16 a.continuous b.continuous, ungated := satAdd top16 a.ungated b.ungated
    unlocated := satAdd top16 a.unlocated b.unlocated, unzoned := satAdd top16 a.unzoned b.unzoned
    located := satAdd top16 a.located b.located, forced := satAdd top16 a.forced b.forced, cut := satAdd top16 a.cut b.cut }

/-- A cycle record merged into the carry record (Table 59). -/
def mergeRecord (carry r : CycleRecord) : CycleRecord :=
  { first := carry.first, last := r.last, coalesced := satAdd top32 carry.coalesced r.coalesced, kind := r.kind, length := r.length
    captures := r.captures, extras := r.extras, mouldState := r.mouldState, identity := r.identity
    flags := carry.flags ||| r.flags
    tallies := mergeTallies carry.tallies r.tallies
    notListed := satAdd top16 carry.notListed r.notListed
    changes := (carry.changes ++ r.changes).take 8
    overflow := min top16 (carry.overflow + r.overflow + ((carry.changes ++ r.changes).length - 8)) }

/-- A record can be created now: the journal and the queue have room. -/
def recordRoom (s : State) : Bool := journalRoom s && queueRoom s

/-- The carry record replaced. -/
def setCarry (c : Option CycleRecord) : State → State := State.onXu fun x => { x with carry := c }

/-- A formed cycle record is placed (R169). -/
def placeRecord (r : CycleRecord) (s : State) : State :=
  if !active s then s
  else
    match s.xu.carry with
    | none => if recordRoom s then createCycleJob r s else setCarry (some r) s
    | some c =>
      if recordRoom s then
        let s := setCarry none (createCycleJob c s)
        if recordRoom s then createCycleJob r s else setCarry (some r) s
      else setCarry (some (mergeRecord c r)) s

/-! ## Asking for a scan (R153) -/

/-- An IDLE unit starts a scan of a kind with the header read. -/
def startScan (kind : ScanKind) (s : State) : State :=
  s.onXu fun x => { x with scan := { x.scan with phase := .header, kind := kind, abandoned := false, mark := none, base := baseOf s } }

/-- The rescan mark after a scan of this kind is asked for: CLOSE is kept over LOOK. -/
def raiseMark (mark : Option ScanKind) (kind : ScanKind) : Option ScanKind :=
  if mark = some .close then mark else some kind

/-- A scan is asked for: an IDLE unit starts it, a SCANNING unit sets the rescan mark (R153). -/
def askScan (kind : ScanKind) (s : State) : State :=
  if s.xu.scan.phase = .idle then startScan kind s
  else s.onXu fun x => { x with scan := { x.scan with mark := raiseMark x.scan.mark kind } }

end Sys2Proof.Machine
end

