-- ==== Sys2Proof/Machine/Evidence.lean ====
section
/-! DEFINITION. The evidence table (05_zone_evidence_and_verdicts.md): the working tables, the increment, the cycle-close update,
the stop latch, the lamp's blink, the context copy and the context load. -/

namespace Sys2Proof.Machine

open Sys2Proof

/-! ## Working tables (R69, R81 to R84) -/

/-- The path window W_p (R69). -/
def pathWindow (length velocity margin : Nat) : Nat := (length * 1000 + velocity - 1) / velocity + margin

/-- A channel number of a validated description. -/
def channelOf (n : Nat) : ChannelNo := Fin.ofNat 16 n

/-- A working path entry at its build (R81). -/
def buildPath (p : PathSpec) : PathEntry :=
  { endA := channelOf p.endA, endB := channelOf p.endB, length := p.length, velocity := p.velocity, calibrated := false
    margin := p.margin, guard := p.guard, window := pathWindow p.length p.velocity p.margin }

/-- A zone entry at its build (Table 27). -/
def buildZone (z : ZoneSpec) : ZoneEntry :=
  { path := z.path, start := z.start, stop := z.stop, floor := z.floor, cavity := z.cavity, label := z.label
    score := 0, verdict := .sound, run := 0, lastActive := none, lifetime := 0, tallyEvents := 0, tallyActive := false }

/-- The tables of a validated description (R81, R83). -/
def buildTables (d : Description) : Tables := { paths := d.paths.map buildPath, zones := d.zones.map buildZone }

/-- The state with the working tables changed, where they stand. -/
def State.onTables (f : Tables → Tables) : State → State := State.onEvid fun e => { e with tables := e.tables.map f }

/-- A path's working V replaced, its calibrated mark set and W_p computed afresh (R82). -/
def PathEntry.replaced (v : Nat) (p : PathEntry) : PathEntry :=
  { p with velocity := v, calibrated := true, window := pathWindow p.length v p.margin }

/-- A velocity replacement; one with no table or an index at or above the path count is discarded (R82). -/
def replaceVelocity (path v : Nat) : State → State :=
  State.onTables fun t => { t with paths := t.paths.modify path (PathEntry.replaced v) }

/-- The blink follows the mould verdict: it starts with an on half when SUSPECT begins and stops when it ends (R99). -/
def syncBlink (s : State) : State :=
  s.onEvid fun e =>
    { e with blink :=
        if mouldVerdict s = some .suspect then some (e.blink.getD { on := true, left := blinkTicks }) else none }

/-- The tables are built (R81, R83); every verdict is SOUND. -/
def standTables (d : Description) (s : State) : State := syncBlink (s.onEvid fun e => { e with tables := some (buildTables d) })

/-- The tables are discarded (R104). The stop latch and the evidence part stand. -/
def discardTables (s : State) : State := syncBlink (s.onEvid fun e => { e with tables := none })

/-- A zone with its context loaded (R84). -/
def ZoneEntry.loaded (z : ZoneEntry) (c : ContextZone) : ZoneEntry :=
  { z with score := c.score, verdict := c.verdict, run := c.run, lastActive := c.lastActive, lifetime := c.lifetime }

/-- A path with its context loaded: a calibrated velocity from 100 to 1000 replaces the description's (R84). -/
def PathEntry.loaded (p : PathEntry) : Option Nat → PathEntry
  | some v => if within 100 1000 v then p.replaced v else p
  | none => p

/-- A context's zone and path parts loaded into the tables (R84). -/
def loadContext (c : ContextRead) (s : State) : State :=
  syncBlink (s.onTables fun t =>
    { paths := t.paths.zipWith PathEntry.loaded c.velocities, zones := t.zones.zipWith ZoneEntry.loaded c.zones })

/-! ## A LOCATED event (R86) -/

/-- The increment I of gate weight `w`, amplitude `a` and floor (R86). -/
def increment (w a floor : Nat) : Nat := if floor ≤ a then w * (a - floor + 1) else 0

/-- A zone after an event of this increment (R86). -/
def ZoneEntry.heard (i : Nat) (z : ZoneEntry) : ZoneEntry :=
  { z with
    score := satAdd 65535 z.score i
    tallyEvents := satAdd 255 z.tallyEvents 1
    tallyActive := z.tallyActive || decide (0 < i) }

/-- The increment a LOCATED event forms in a zone (R86). -/
def zoneIncrement (s : State) (zone w a : Nat) : Nat :=
  match (zonesOf s)[zone]? with
  | none => 0
  | some z => increment w a z.floor

/-- A LOCATED event is taken (R86). -/
def takeLocated (zone w a : Nat) (s : State) : State :=
  s.onTables fun t => { t with zones := t.zones.modify zone (ZoneEntry.heard (zoneIncrement s zone w a)) }

/-! ## The cycle-close update (R88 to R95) -/

/-- The run at a mould cycle close (R89). -/
def runAfter (z : ZoneEntry) : Nat := if z.tallyActive then satAdd 255 z.run 1 else 0

/-- The score after decay (R90). -/
def decayed (k score : Nat) : Nat := if k = 0 then score else score - score / 2 ^ k

/-- The highest level whose threshold, less `h`, the score has reached (R91). -/
def levelAt (e : EvidencePart) (h score : Nat) : Nat :=
  if e.tCrack - h ≤ score then 3 else if e.tSuspect - h ≤ score then 2 else if e.tWatch - h ≤ score then 1 else 0

/-- The level up (R91). -/
def upLevel (e : EvidencePart) (score : Nat) : Nat := levelAt e 0 score

/-- The level down (R91). -/
def downLevel (e : EvidencePart) (score : Nat) : Nat := levelAt e e.hysteresis score

/-- The verdict with hysteresis, from a verdict that is not CRACKED (R91). -/
def hysteresisVerdict (e : EvidencePart) (v : Verdict) (score : Nat) : Verdict :=
  if v.level < upLevel e score then verdictOfLevel (upLevel e score)
  else if downLevel e score < v.level then verdictOfLevel (downLevel e score)
  else v

/-- The run floor (R92). -/
def runFloor (e : EvidencePart) (run : Nat) (v : Verdict) : Verdict :=
  if 0 < e.suspectRun ∧ e.suspectRun ≤ run ∧ v.level < 2 then .suspect else v

/-- The verdict at a mould cycle close (R91 to R93). -/
def verdictAfter (e : EvidencePart) (v : Verdict) (score run : Nat) : Verdict :=
  if v = .cracked then .cracked else runFloor e run (hysteresisVerdict e v score)

/-- The last step of a mould cycle close: the zone's record of the cycle (R89). -/
def ZoneEntry.recorded (watch : Nat) (z : ZoneEntry) : ZoneEntry :=
  { z with
    lifetime := satAdd top32 z.lifetime z.tallyEvents
    lastActive := if z.tallyActive then some watch else z.lastActive
    tallyEvents := 0, tallyActive := false }

/-- A zone that is not blind at a mould cycle close (Table 29). -/
def ZoneEntry.updated (e : EvidencePart) (watch : Nat) (z : ZoneEntry) : ZoneEntry :=
  let run := runAfter z
  let score := decayed e.decay z.score
  ({ z with run := run, score := score, verdict := verdictAfter e z.verdict score run }).recorded watch

/-- A zone at a close that is no mould cycle (R88). -/
def ZoneEntry.tabled (z : ZoneEntry) : ZoneEntry :=
  { z with lifetime := satAdd top32 z.lifetime z.tallyEvents, tallyEvents := 0, tallyActive := false }

/-- The watch number of the closing cycle (R124). -/
def watchNumber (s : State) : Nat := satAdd top32 s.mould.cyclesWatched 1

/-- A zone at a cycle close (R88, R94). -/
def closeZone (s : State) (z : ZoneEntry) : ZoneEntry :=
  if !watching s then z.tabled
  else if zoneBlind s z then z.recorded (watchNumber s)
  else z.updated s.evid.part (watchNumber s)

/-- The verdict changes of a close, in zone index order (R95). -/
def changesFrom : Nat → List ZoneEntry → List ZoneEntry → List VerdictChange
  | i, a :: as, b :: bs =>
    if a.verdict = b.verdict then changesFrom (i + 1) as bs
    else { zone := i, label := a.label, old := a.verdict, new := b.verdict } :: changesFrom (i + 1) as bs
  | _, _, _ => []

/-- The close report (R95). -/
structure CloseReport where
  changes : List VerdictChange
  rose : Bool
  latched : Bool
  deriving DecidableEq, Repr

/-- The verdict changes of the close that would be taken now. -/
def closeChanges (s : State) : List VerdictChange := changesFrom 0 (zonesOf s) ((zonesOf s).map (closeZone s))

/-- A change of the close is a change into CRACKED while stop-on-crack is enabled (R98). -/
def latches (s : State) : Bool := s.evid.part.stopOnCrack && (closeChanges s).any fun c => decide (c.new = .cracked)

/-- The report of the close that would be taken now (R95). The stop indication says that the latch became set (log entry 40). -/
def closeReport (s : State) : CloseReport :=
  { changes := closeChanges s
    rose := (closeChanges s).any fun c => decide (c.old.level < c.new.level)
    latched := latches s && !s.evid.stopLatch }

/-- The evidence table takes a cycle close (R88, R98). -/
def evidenceClose (s : State) : State :=
  syncBlink (s.onEvid fun e =>
    { e with
      tables := e.tables.map fun t => { t with zones := t.zones.map (closeZone s) }
      stopLatch := e.stopLatch || latches s })

/-! ## Orders and copies (R100, R103) -/

/-- A cleared zone (R100). -/
def ZoneEntry.cleared (z : ZoneEntry) : ZoneEntry :=
  { z with score := 0, verdict := .sound, run := 0, tallyEvents := 0, tallyActive := false }

/-- The named zone, or every zone for 255, cleared (R100). -/
def clearZones (zone : Nat) (s : State) : State :=
  syncBlink (s.onTables fun t =>
    { t with zones := if zone = 255 then t.zones.map ZoneEntry.cleared else t.zones.modify zone ZoneEntry.cleared })

/-- The stop latch cleared (R102). -/
def releaseLatch : State → State := State.onEvid fun e => { e with stopLatch := false }

/-- A zone's part of a context copy (R103). -/
def contextZone (z : ZoneEntry) : ContextZone :=
  { score := z.score, verdict := z.verdict, run := z.run, lastActive := z.lastActive, lifetime := z.lifetime }

/-- A path's part of a context copy (R103). -/
def contextVelocity (p : PathEntry) : Option Nat := if p.calibrated then some p.velocity else none

end Sys2Proof.Machine
end

