-- ==== Sys2Proof/Machine/Locator.lean ====
section
/-! DEFINITION. The locator (04_source_location.md): the joining path, the arrival difference, the position in whole numbers, the
guard clamp and the zone. It holds no state (R67). -/

namespace Sys2Proof.Machine

open Sys2Proof

/-- A path joins two channels (R46). -/
def PathEntry.joins (p : PathEntry) (a b : ChannelNo) : Bool :=
  (decide (p.endA = a) && decide (p.endB = b)) || (decide (p.endA = b) && decide (p.endB = a))

/-- A path has the channel at either end. -/
def PathEntry.touches (p : PathEntry) (c : ChannelNo) : Bool := decide (p.endA = c) || decide (p.endB = c)

/-- The lowest-numbered path joining two channels, with its index (R46). -/
def joiningPath (paths : List PathEntry) (a b : ChannelNo) : Option (Nat × PathEntry) :=
  match paths.findIdx? (fun p => p.joins a b) with
  | none => none
  | some i => paths[i]?.map fun p => (i, p)

/-- The widest window of a channel, none when it lies on no path (R46). -/
def widestWindow (paths : List PathEntry) (c : ChannelNo) : Option Nat := ((paths.filter fun p => p.touches c).map (·.window)).max?

/-- Δt = t_B − t_A, modulo 2^32, read as signed (R70). -/
def arrivalDifference (tA tB : Word) : Int := (tB - tA).toInt

/-- The doubled distance from end A in µm (R72). -/
def doubledDistance (length velocity : Nat) (dt : Int) : Int := (length * 1000 : Nat) - velocity * dt

/-- The position in whole mm from end A, before the guard (R73). The divisor is positive, so the quotient is the floor. -/
def positionOf (d : Int) : Int := (d + 1000) / 2000

/-- The guard clamp (R75): none where the answer is UNLOCATED. -/
def guardClamp (length guard : Nat) (pos : Int) : Option Nat :=
  if pos < 0 then (if -pos ≤ guard then some 0 else none)
  else if (length : Int) < pos then (if pos - length ≤ guard then some length else none)
  else some pos.toNat

/-- The position the locator finds on a path, none for UNLOCATED (R71 to R75). -/
def locatePosition (p : PathEntry) (tA tB : Word) : Option Nat :=
  let dt := arrivalDifference tA tB
  if p.window < dt.natAbs then none else guardClamp p.length p.guard (positionOf (doubledDistance p.length p.velocity dt))

/-- The zone of a position on a path (R76). -/
def zoneAt (zones : List ZoneEntry) (path pos : Nat) : Option Nat :=
  zones.findIdx? fun z => decide (z.path = path) && decide (z.start ≤ pos) && decide (pos ≤ z.stop)

/-- The locator's answer as the event's class (R77). -/
def locate (s : State) (path : Nat) (p : PathEntry) (tA tB : Word) : EventClass :=
  match locatePosition p tA tB with
  | none => .unlocated
  | some pos =>
    match zoneAt (zonesOf s) path pos with
    | none => .unzoned path pos
    | some z => .located path pos z

end Sys2Proof.Machine
end

