-- ==== Sys2Proof/Machine/Correlator.lean ====
section
/-! DEFINITION. The event correlator (03_event_correlation.md): hit starts and ends, deadlines, forced closes and cuts, the classes,
the tallies and the hand-offs. -/

namespace Sys2Proof.Machine

open Sys2Proof

/-- The open event list's capacity (R51). -/
def eventCapacity : Nat := 32

/-! ## Closing and classifying (R58 to R63) -/

/-- A member has ended and is unrejected. -/
def Member.unrejected (m : Member) : Bool :=
  match m.ended with
  | some h => !h.rejected
  | none => false

/-- A member carries the REJECTED mark. -/
def Member.rejected (m : Member) : Bool :=
  match m.ended with
  | some h => h.rejected
  | none => false

/-- A member carries the LONG mark. -/
def Member.isLong (m : Member) : Bool :=
  match m.ended with
  | some h => h.long
  | none => false

/-- A member's peak, 0 while it has not ended. -/
def Member.peak (m : Member) : Nat :=
  match m.ended with
  | some h => h.peak
  | none => 0

/-- The unrejected members in arrival order (R59). -/
def Event.unrejected (e : Event) : List Member := e.members.filter Member.unrejected

/-- Every member has ended. -/
def Event.allEnded (e : Event) : Bool := e.members.all fun m => m.ended.isSome

/-- The amplitude A: the largest peak among unrejected members (R62). -/
def Event.amplitude (e : Event) : Nat := e.unrejected.foldl (fun a m => max a m.peak) 0

/-- The gate weight of the first unrejected member (R59). -/
def Event.gate (e : Event) : Nat :=
  match e.unrejected with
  | [] => 0
  | m :: _ => m.gate

/-- The class of a location pair (R60, R61). -/
def pairClass (s : State) (a b : Member) : EventClass :=
  match joiningPath (pathsOf s) a.chan b.chan with
  | none => .unlocated
  | some (i, p) =>
    if live s a.chan && live s b.chan && locating s then
      if p.endA = a.chan then locate s i p a.arrival b.arrival else locate s i p b.arrival a.arrival
    else .unlocated

/-- The class of a closing event (Table 20). -/
def classOf (s : State) (e : Event) : EventClass :=
  match e.unrejected with
  | [] => .empty
  | m :: ms =>
    if (m :: ms).any Member.isLong then .continuous
    else if m.gate = 0 then .ungated
    else
      match ms with
      | [] => .unlocated
      | n :: _ => pairClass s m n

/-- A tally rises by one, stopping at 2^32 − 1 (R45). -/
def countUp (n : Nat) : Nat := satAdd top32 n 1

/-- The class count of a closed event (R58). -/
def tallyClass (t : Tallies) : EventClass → Tallies
  | .empty => { t with empty := countUp t.empty }
  | .continuous => { t with continuous := countUp t.continuous }
  | .ungated => { t with ungated := countUp t.ungated }
  | .unlocated => { t with unlocated := countUp t.unlocated }
  | .unzoned _ _ => { t with unzoned := countUp t.unzoned }
  | .located _ _ _ => { t with located := countUp t.located }

/-- The cause count of a closed event (R58). -/
def tallyCause (t : Tallies) : CloseCause → Tallies
  | .expiry => t
  | .forced => { t with forced := countUp t.forced }
  | .cut => { t with cut := countUp t.cut }

/-- The tallies after an event's close (R58). -/
def tallyEvent (t : Tallies) (c : EventClass) (cause : CloseCause) (rejectedMembers : Nat) : Tallies :=
  let t := tallyCause (tallyClass t c) cause
  { t with rejected := satAdd top32 t.rejected rejectedMembers }

/-- The state with the tallies changed. -/
def State.onTallies (f : Tallies → Tallies) : State → State := State.onCorr fun c => { c with tallies := f c.tallies }

/-- The located-event offer of a closed event (Table 21). -/
def offerOf (s : State) (e : Event) (cause : CloseCause) (path position : Nat) (zone : Option (Nat × Nat × Verdict))
    (increment : Nat) : LocatedOffer :=
  { cycle := s.timer.number, arrival := e.firstArrival, cause := cause, path := path, position := position, zone := zone
    increment := increment, peak := e.amplitude, gate := e.gate, members := e.members.map (·.chan) }

/-- A zone's label and verdict. -/
def zoneLabel (s : State) (zone : Nat) : Nat × Nat × Verdict :=
  match (zonesOf s)[zone]? with
  | none => (zone, 0, .sound)
  | some z => (zone, z.label, z.verdict)

/-- A closed event is handed on by its class (R62, R63). -/
def handOn (e : Event) (cause : CloseCause) (c : EventClass) (s : State) : State :=
  match c with
  | .unzoned path pos => offerLocated (offerOf s e cause path pos none 0) s
  | .located path pos zone =>
    offerLocated (offerOf s e cause path pos (some (zoneLabel s zone)) (zoneIncrement s zone e.gate e.amplitude))
      (takeLocated zone e.gate e.amplitude s)
  | _ => s

/-- An event already removed from the list is classified, tallied and handed on (R58). -/
def closeEvent (e : Event) (cause : CloseCause) (s : State) : State :=
  let c := classOf s e
  handOn e cause c (s.onTallies fun t => tallyEvent t c cause (e.members.countP Member.rejected))

/-- The list with the event of a serial removed. -/
def removeEvent (serial : Nat) : State → State :=
  State.onCorr fun c => { c with events := c.events.filter fun e => decide (e.serial ≠ serial) }

/-- The list with the event of a serial changed. -/
def onEvent (serial : Nat) (f : Event → Event) : State → State :=
  State.onCorr fun c => { c with events := c.events.map fun e => if e.serial = serial then f e else e }

/-- The event of a serial. -/
def findEvent (s : State) (serial : Nat) : Option Event := s.corr.events.find? fun e => decide (e.serial = serial)

/-- Every event in the list closes CUT, from the front to the back (R55, R56). -/
def cutEvents (s : State) : State :=
  s.corr.events.foldl (fun s e => closeEvent e .cut s) (s.onCorr fun c => { c with events := [] })

/-! ## Hit starts (R47 to R50) -/

/-- An OPEN event accepts a hit start (R48). -/
def accepts (s : State) (c : ChannelNo) (t : Word) (e : Event) : Bool :=
  !e.closing && !(e.members.any fun m => decide (m.chan = c)) &&
    match joiningPath (pathsOf s) c e.firstChannel with
    | none => false
    | some (_, p) => decide (diff32 t e.firstArrival ≤ p.window)

/-- A new member (Table 17). -/
def newMember (c : ChannelNo) (t : Word) (w : Nat) : Member := { chan := c, arrival := t, gate := w, ended := none }

/-- The hit joins an event at the back of its members (R47). -/
def Event.joined (m : Member) (e : Event) : Event := { e with members := e.members ++ [m] }

/-- The event a hit opens (R49). -/
def openedEvent (s : State) (c : ChannelNo) (t : Word) (w : Nat) : Event :=
  let widest := (widestWindow (pathsOf s) c).getD 0
  { serial := s.corr.nextSerial, firstChannel := c, firstArrival := t, deadline := t + BitVec.ofNat 32 widest, widest := widest
    closing := decide (widest = 0), members := [newMember c t w] }

/-- A new event is opened for a hit start (R49). -/
def openEvent (c : ChannelNo) (t : Word) (w : Nat) (s : State) : State :=
  (s.onCorr fun r => { r with events := r.events ++ [openedEvent s c t w], nextSerial := r.nextSerial + 1 }).putPlace c
    (.member s.corr.nextSerial)

/-- The hit places of an event's unended members become DETACHED (R50). -/
def detach (e : Event) (s : State) : State :=
  e.members.foldl (fun s m => if m.ended.isSome then s else s.putPlace m.chan .detached) s

/-- The event at the front is closed FORCED with the members that have ended (R50). -/
def forceClose (s : State) : State :=
  match s.corr.events with
  | [] => s
  | e :: es =>
    closeEvent { e with members := e.members.filter fun m => m.ended.isSome } .forced
      (detach e (s.onCorr fun c => { c with events := es }))

/-- A hit that no event accepts opens one, after a forced close when the list is full (R47, R50). -/
def openNew (c : ChannelNo) (t : Word) (w : Nat) (s : State) : State :=
  openEvent c t w (if eventCapacity ≤ s.corr.events.length then forceClose s else s)

/-- The correlator takes a hit start (R47). -/
def corrHitStart (c : ChannelNo) (t : Word) (w : Nat) (s : State) : State :=
  let s := s.onTallies fun x => { x with delivered := countUp x.delivered }
  match s.corr.events.findIdx? (accepts s c t) with
  | some i =>
    (s.onCorr fun r => { r with events := r.events.modify i (Event.joined (newMember c t w)) }).putPlace c
      (.member ((s.corr.events[i]?.map (·.serial)).getD 0))
  | none => openNew c t w s

/-! ## Deadlines and hit ends (R52, R53) -/

/-- A CLOSING event whose members have all ended closes EXPIRY (R53). -/
def closeIfEnded (serial : Nat) (s : State) : State :=
  match findEvent s serial with
  | none => s
  | some e => if e.closing && e.allEnded then closeEvent e .expiry (removeEvent serial s) else s

/-- A member of a channel takes its hit end (R53). -/
def Event.filled (c : ChannelNo) (h : HitEnd) (e : Event) : Event :=
  { e with members := e.members.map fun m => if m.chan = c then { m with ended := some h } else m }

/-- A hit end finds its place: a member is filled in, a DETACHED hit is an orphan, and no event closes (R53, R55). -/
def noteCorrEnd (c : ChannelNo) (h : HitEnd) (s : State) : State :=
  match s.corr.places[c] with
  | .none => s
  | .detached => (s.putPlace c .none).onTallies fun t => { t with orphan := countUp t.orphan }
  | .member serial => onEvent serial (Event.filled c h) (s.putPlace c .none)

/-- The correlator takes a hit end outside a cut: the end of a CLOSING event's last open member closes it (R53). -/
def corrHitEnd (c : ChannelNo) (h : HitEnd) (s : State) : State :=
  match s.corr.places[c] with
  | .member serial => closeIfEnded serial (noteCorrEnd c h s)
  | _ => noteCorrEnd c h s

/-- An OPEN event has reached its deadline (R52). -/
def deadlineDue (s : State) (e : Event) : Bool := !e.closing && reached s.timer.clock e.firstArrival e.deadline

/-- An event reaches its deadline (R52). -/
def meetDeadline (e : Event) (s : State) : State :=
  if e.allEnded then closeEvent e .expiry (removeEvent e.serial s)
  else onEvent e.serial (fun e => { e with closing := true }) s

end Sys2Proof.Machine
end

