-- ==== Sys2Proof/Machine/MouldReport.lean ====
section
/-! DEFINITION. What the mould manager does with a report of a channel's state (R26): it derives WATCHING and DEGRADED (R109),
completes a MOUNT (R116) and completes a relock (R122). -/

namespace Sys2Proof.Machine

open Sys2Proof

/-- Every used channel is LIVE or FAULT (R116, R122). -/
def allSettled (s : State) : Bool := s.mould.used.all (settled s)

/-- The mould state with the clamp locked and the channels settled: WATCHING or DEGRADED (R109, R116, R122). -/
def watchState (s : State) : MouldState := if s.mould.used.all (hearing s) then .watching else .degraded

/-- The result of a completed MOUNT (R116). -/
def mountResult (m : MouldManager) : OrderResult :=
  if m.fresh = .none then .mountOk m.loadedSavedBy m.cyclesWatched else .okFresh m.fresh

/-- A result goes to the exchange unit for the order in hand, of either kind. -/
def answerOrder (r : OrderResult) (s : State) : State :=
  match s.mould.order with
  | .none => s
  | .mount o | .dismount o => giveResult o r s

/-- The order in hand is done. -/
def dropOrder : State → State := State.onMould fun m => { m with order := .none }

/-- The MOUNT is complete (R116). -/
def mountComplete (s : State) : State :=
  let t := s.onMould fun m => { m with phase := .none, state := watchState s, checkpoint := 0 }
  requestMirror (dropOrder (answerOrder (mountResult s.mould) t))

/-- The mould manager takes the report of a used channel's state. A relock completes only with the clamp locked (log entry 26). -/
def mouldDerive (s : State) : State :=
  match s.mould.state with
  | .watching | .degraded => s.onMould fun m => { m with state := watchState s }
  | .mounting => if decide (s.mould.phase = .settling) && allSettled s then mountComplete s else s
  | .suspended => if clampLocked s && allSettled s then s.onMould fun m => { m with state := watchState s } else s
  | .empty | .dismounting => s

/-- The mould manager takes a report; one that names a channel the mould does not use is ignored (R109). -/
def mouldFollow (c : ChannelNo) (s : State) : State := if decide (c ∈ s.mould.used) then mouldDerive s else s

end Sys2Proof.Machine
end

