-- ==== Sys2Proof/Machine/Tester.lean ====
section
/-! DEFINITION. The coupling tester (07_coupling_test_and_velocity_calibration.md) with the source's side of an attempt (R40 to R42):
the partner list, attempts, judgement, calibration, completion, and the interruptions. -/

namespace Sys2Proof.Machine

open Sys2Proof

/-- The test queue's capacity (R131). -/
def testCapacity : Nat := 8

/-! ## The channel front end's hit end (R34, R37) -/

/-- The hit end of an open hit, with its REJECTED mark (R34). -/
def endOf (h : OpenHit) (long cut : Bool) : HitEnd :=
  { peak := h.peak, counts := h.counts, long := long, cut := cut, rejected := decide (h.counts < h.hitDef.minCounts) }

/-- The detector enters ARMED (R28). -/
def Channel.armed (ch : Channel) : Channel := { ch with detector := .armed, armedNow := true }

/-- The detector is IDLE, with no lockout and no hit. -/
def Channel.idled (ch : Channel) : Channel := { ch with detector := .idle, hit := none, lockout := none, armedNow := false }

/-- A hit end for the correlator is delivered; one for the tester, whose attempt is over or was never begun, is discarded (R138). -/
def deliverOutsideAttempt (c : ChannelNo) (h : OpenHit) (s : State) : State :=
  match h.receiver with
  | .correlator => corrHitEnd c (endOf h false true) s
  | .tester => s

/-! ## Source side of an attempt (R40, R41) -/

/-- A LIVE source takes a pulse request: its open hit is cut, its detector is IDLE, and it becomes PULSING (R40). -/
def pulseSource (c : ChannelNo) (level : Nat) (s : State) : State :=
  let ch := s.channel c
  let s := s.onChannel c Channel.idled
  let s := match ch.hit with
    | none => s
    | some h => deliverOutsideAttempt c h s
  mouldFollow c (s.onChannel c fun ch => { ch with state := .pulsing, drive := some { level := level, left := pulseTicks } })

/-- A pulse release: a PULSING source becomes LIVE with its detector ARMED (R41); any other channel is not changed. -/
def releaseSource (c : ChannelNo) (s : State) : State :=
  if (s.channel c).state = .pulsing then
    mouldFollow c (s.onChannel c fun ch => { ch with state := .live, drive := none }.armed)
  else s

/-- A channel's route goes back to the correlator (R42). -/
def clearRoute (c : ChannelNo) : State → State := State.onChannel c fun ch => { ch with route := .correlator }

/-- Every route of an attempt goes back to the correlator (R42). -/
def clearRoutes (ps : List Partner) (s : State) : State := ps.foldl (fun s p => if p.routed then clearRoute p.chan s else s) s

/-! ## Taking a test (R132, R133) -/

/-- The far end of a path from a channel. -/
def farEnd (p : PathEntry) (c : ChannelNo) : ChannelNo := if p.endA = c then p.endB else p.endA

/-- A partner at the take (R133). -/
def newPartner (chan : ChannelNo) (path : Nat) : Partner :=
  { chan := chan, path := path, outcome := none, heardOn := none, heard := none, applied := false, routed := false
    firstSeen := false, hitOpen := false, arrival := 0, heardNow := none }

/-- The walk of the paths from an index on, with the partners found so far (R133). -/
def walkPartners (source : ChannelNo) : List PathEntry → Nat → List Partner → List Partner
  | [], _, found => found
  | p :: ps, i, found =>
    if p.touches source && decide (found.length < 6) && !(found.any fun x => decide (x.chan = farEnd p source)) then
      walkPartners source ps (i + 1) (found ++ [newPartner (farEnd p source) i])
    else walkPartners source ps (i + 1) found

/-- The partner list of a source (R133). -/
def partnersOf (paths : List PathEntry) (source : ChannelNo) : List Partner := walkPartners source paths 0 []

/-! ## Calibration (R145) -/

/-- The calibration from a measured transit, the path's length and the pulser delay (R145). -/
def calibrate (transit length delay : Nat) : Calibration × Option Nat :=
  if transit ≤ delay then (.invalid, none)
  else
    let d := transit - delay
    let v := (length * 1000 + d / 2) / d
    if within 100 1000 v then (.ok, some v) else (.range, some v)

/-! ## Ending a test (R140, R147) -/

/-- The partner entries of an ended test: a partner without an outcome is DEAD (R140, R142). -/
def closedPartner (p : Partner) : Partner := { p with outcome := some (p.outcome.getD .dead) }

/-- The velocity a partner applies, none unless its calibration is CAL_OK (R146). -/
def partnerVelocity (p : Partner) : Option Nat :=
  match p.heard with
  | some h => if h.calibration = .ok then h.velocity else none
  | none => none

/-- A partner whose velocity was sent carries the applied mark (R147). -/
def appliedPartner (p : Partner) : Partner := { p with applied := (partnerVelocity p).isSome }

/-- The velocity replacements of a completed test, in partner-list order (R140, R146). -/
def applyVelocities (ps : List Partner) (s : State) : State :=
  ps.foldl (fun s p => match partnerVelocity p with | some v => replaceVelocity p.path v s | none => s) s

/-- The final partner entries of a test, with the applied marks of a completed test whose apply flag is set. -/
def finalPartners (how : TestEnd) (t : Test) : List Partner :=
  let ps := t.partners.map closedPartner
  if how = .ok ∧ t.apply = true then ps.map appliedPartner else ps

/-- The result of an ended test (Table 43). -/
def testResult (how : TestEnd) (t : Test) : OrderResult := .test how t.used t.lastLevel (finalPartners how t)

/-- A test ends: velocities of a completed test, then its result, with TEST_DONE in the open cycle's record (R140, R147). -/
def endTest (how : TestEnd) (t : Test) (s : State) : State :=
  let s := if how = .ok ∧ t.apply = true then applyVelocities (finalPartners how t) s else s
  giveResult t.order (testResult how t) (accrue flagTestDone s)

/-- The test at the head leaves the queue (R134). -/
def dropHead (s : State) : State := { s with tester := s.tester.tail }

/-! ## Starting an attempt (R135 to R137) -/

/-- Which partners an attempt routes (R136): at the first, every LIVE partner, the others SKIPPED; later, every LIVE partner not SKIPPED. -/
def routePartner (s : State) (first : Bool) (p : Partner) : Partner :=
  let p := { p with firstSeen := false, hitOpen := false, heardNow := none }
  if first then { p with routed := live s p.chan, outcome := if live s p.chan then none else some .skipped }
  else { p with routed := decide (p.outcome ≠ some .skipped) && live s p.chan }

/-- The start conditions of R135 hold for a WAITING head. -/
def startable (s : State) (t : Test) : Bool := decide (s.timer.press = .stopped) && watching s && live s t.source

/-- The path window of a partner's joining path as it stands (R137). -/
def partnerWindow (s : State) (p : Partner) : Nat :=
  match (pathsOf s)[p.path]? with
  | none => 0
  | some e => e.window

/-- The routes of an attempt are set (R137). -/
def setRoutes (pulse : Word) (ps : List Partner) (s : State) : State :=
  ps.foldl
    (fun s p =>
      if p.routed then
        s.onChannel p.chan fun ch => { ch with route := .tester pulse (pulse + BitVec.ofNat 32 (partnerWindow s p)) }
      else s)
    s

/-- The longest listening span among the routed partners (R137). -/
def longestSpan (s : State) (ps : List Partner) : Nat := ps.foldl (fun m p => if p.routed then max m (partnerWindow s p) else m) 0

/-- The pulse is driven and the head test is LISTENING (R137). -/
def driveAttempt (t : Test) (s : State) : State :=
  let pulse := s.timer.clock
  let s := pulseSource t.source t.level s
  let s := setRoutes pulse t.partners s
  s.onTest fun _ =>
    { t with
      state := .listening
      attempt := some { pulseTick := pulse, endTick := pulse + BitVec.ofNat 32 (longestSpan s t.partners) } }

/-- The head test is judged by R135, and the tests that reach the head after it in turn: at most `n` of them (R134, R143). -/
def judgeHead : Nat → State → State
  | 0, s => s
  | n + 1, s =>
    match s.tester with
    | [] => s
    | t :: _ =>
      if t.state ≠ .waiting then s
      else if (s.channel t.source).state = .fault then judgeHead n (dropHead (endTest .sourceFault t s))
      else if startable s t then
        let t := { t with partners := t.partners.map (routePartner s (decide (t.used = 0))) }
        if t.partners.any (·.routed) then driveAttempt t s
        else judgeHead n (dropHead (endTest .ok t s))
      else s

/-- The head of the queue is judged. -/
def judgeQueue (s : State) : State := judgeHead s.tester.length s

/-! ## Judging an attempt (R138, R139) -/

/-- A partner entry after the attempt in which it was heard (R139). -/
def judgedPartner (used : Nat) (p : Partner) : Partner :=
  match p.heardNow with
  | none => { p with routed := false, firstSeen := false, hitOpen := false }
  | some h =>
    { p with outcome := some (if used = 1 then .pass else .weak), heardOn := some used, heard := some h, routed := false
             firstSeen := false, hitOpen := false, heardNow := none }

/-- A partner with no outcome yet that is LIVE (R139). -/
def eligible (s : State) (p : Partner) : Bool := decide (p.outcome = none) && live s p.chan

/-- The attempt of the head test is counted and judged (R139). -/
def judgeAttempt (s : State) : State :=
  match s.tester with
  | [] => s
  | t :: _ =>
    let used := t.used + 1
    let t := { t with used := used, lastLevel := t.level, attempt := none, partners := t.partners.map (judgedPartner used) }
    if !(t.partners.any (eligible s)) || decide (used = t.allowed) then judgeQueue (dropHead (endTest .ok t s))
    else s.onTest fun _ => { t with level := min 7 (t.level + 1), state := .resting, rest := some restTicks }

/-- The tester takes a hit start: only the first of a routed partner counts (R138). -/
def seenPartner (c : ChannelNo) (t : Word) (p : Partner) : Partner :=
  if decide (p.chan = c) && p.routed && !p.firstSeen then { p with firstSeen := true, hitOpen := true, arrival := t } else p

/-- The tester takes a hit start (R138). -/
def testHitStart (c : ChannelNo) (t : Word) : State → State :=
  State.onTest fun x => if x.attempt.isSome then { x with partners := x.partners.map (seenPartner c t) } else x

/-- The partner had heard in an earlier attempt (R138). -/
def heardEarlier (p : Partner) : Bool := decide (p.outcome = some .pass) || decide (p.outcome = some .weak)

/-- A partner hears in this attempt (R138). -/
def hears (t : Test) (h : HitEnd) (p : Partner) : Bool :=
  !heardEarlier p && !h.long && !h.cut && !h.rejected && decide (t.required ≤ h.peak)

/-- The length of a path by its index. -/
def pathLength (s : State) (path : Nat) : Nat :=
  match (pathsOf s)[path]? with
  | none => 0
  | some p => p.length

/-- What a partner heard, from its arrival (R138, R145). -/
def heardOf (s : State) (t : Test) (pulse : Word) (h : HitEnd) (p : Partner) : Heard :=
  let transit := diff32 p.arrival pulse
  let cal := calibrate transit (pathLength s p.path) t.delay
  { transit := transit, peak := h.peak, calibration := cal.1, velocity := cal.2 }

/-- A partner whose first hit ends (R138). -/
def endedPartner (s : State) (t : Test) (pulse : Word) (c : ChannelNo) (h : HitEnd) (p : Partner) : Partner :=
  if decide (p.chan = c) && p.hitOpen then
    { p with hitOpen := false, heardNow := if hears t h p then some (heardOf s t pulse h p) else none }
  else p

/-- The end of a partner's hit is noted in the head test while an attempt is in progress (R138). -/
def noteHitEnd (c : ChannelNo) (h : HitEnd) (s : State) : State :=
  s.onTest fun t =>
    match t.attempt with
    | none => t
    | some a => { t with partners := t.partners.map (endedPartner s t a.pulseTick c h) }

/-- No routed partner of a DRAINING head has a tester hit open (R139). -/
def drained (s : State) : Bool :=
  match s.tester with
  | [] => false
  | t :: _ => decide (t.state = .draining) && !(t.partners.any fun p => p.routed && p.hitOpen)

/-- The tester takes a hit end, and judges a drained attempt (R138, R139). -/
def testHitEnd (c : ChannelNo) (h : HitEnd) (s : State) : State :=
  let s := noteHitEnd c h s
  if drained s then judgeAttempt s else s

/-- The attempt's end tick: the source is released and the routes end; the attempt drains or is judged (R137). -/
def endAttemptTick (t : Test) (s : State) : State :=
  let s := clearRoutes t.partners (releaseSource t.source s)
  if t.partners.any fun p => p.routed && p.hitOpen then s.onTest fun t => { t with state := .draining } else judgeAttempt s

/-! ## Interruptions (R141 to R143) -/

/-- A partner entry with the attempt's marks cleared; a partner skipped stays SKIPPED (R142). -/
def forgottenPartner (p : Partner) : Partner :=
  { p with routed := false, firstSeen := false, hitOpen := false, heardNow := none }

/-- The attempt in progress is forgotten, uncounted, and its routes end; the source's release is separate (R141, R142). -/
def forgetAttempt (s : State) : State :=
  match s.tester with
  | [] => s
  | t :: _ => (clearRoutes t.partners s).onTest fun t => { t with attempt := none, partners := t.partners.map forgottenPartner }

/-- A PULSING source of the head test is sent its release (R141, R142). -/
def releaseHead (s : State) : State :=
  match s.tester with
  | [] => s
  | t :: _ => releaseSource t.source s

/-- A partner of a test with no attempt counted: its outcome is judged afresh (R136, R141). A test that ends before that reports it
DEAD, not SKIPPED: the model's choice between R141 and R143 (log entry 46). -/
def freshPartner (p : Partner) : Partner := { p with outcome := none }

/-- A test that a close has interrupted: a rest stops, and the test is WAITING; abandoned on its first attempt, it judges SKIPPED
afresh at the next (R141; what it reports if it ends first is log entry 46). -/
def interruptedTest (t : Test) : Test :=
  { t with state := .waiting, rest := none, partners := if t.used = 0 then t.partners.map freshPartner else t.partners }

/-- The tester takes a cycle close, but for the release: the attempt is forgotten, and the head is WAITING (R141). -/
def testerClose (s : State) : State := (forgetAttempt s).onTest interruptedTest

/-- The mould manager's abort: every test ends ABORTED, in queue order (R142). -/
def abortTests (s : State) : State :=
  let s := releaseHead (forgetAttempt s)
  s.tester.foldl (fun s t => endTest .aborted t s) { s with tester := [] }

/-- The tester follows its source: a source that becomes FAULT ends the current test (R143). -/
def testerFollow (c : ChannelNo) (s : State) : State :=
  match s.tester with
  | [] => s
  | t :: _ =>
    if decide (t.source = c) && decide ((s.channel c).state = .fault) then
      judgeQueue (dropHead (endTest .sourceFault t (clearRoutes t.partners s)))
    else s

end Sys2Proof.Machine
end

