-- ==== Sys2Proof/Machine/Channel.lean ====
section
/-! DEFINITION. The channel front end (02_sensor_channels.md): hit starts, crossings and ends, cuts, bias requests, the settle
expiry and the overload. -/

namespace Sys2Proof.Machine

open Sys2Proof

/-! ## Hits (R30 to R37) -/

/-- The active threshold of an ARMED detector (R28). -/
def activeThreshold (base raise : Nat) : Nat := min 99 (base + raise)

/-- The receiver of a hit that starts at this clock value (R42). At the end tick itself, whether or not ROUTE_END has been taken, it is
the correlator, the model's choice (log entry 41). -/
def receiverAt (r : Route) (t : Word) : Receiver :=
  match r with
  | .correlator => .correlator
  | .tester p e => if diff32 t p < diff32 e p then .tester else .correlator

/-- The hit record a crossing opens (R30). -/
def openedHit (s : State) (c : ChannelNo) (base amplitude : Nat) : OpenHit :=
  let t := s.timer.clock
  let d := s.front.hitDef
  { arrival := t, threshold := activeThreshold base (currentRaise s.timer), gate := currentGate s.timer, hitDef := d, counts := 1
    peak := min 100 amplitude, lastCrossing := t, receiver := receiverAt (s.channel c).route t
    hdtLeft := d.hdt * ticksPerMicrosecond, maxLeft := d.maxDuration * ticksPerMicrosecond }

/-- A hit start is handed to its receiver (R30, R37). -/
def deliverStart (c : ChannelNo) (h : OpenHit) (s : State) : State :=
  match h.receiver with
  | .correlator => corrHitStart c h.arrival h.gate s
  | .tester => testHitStart c h.arrival s

/-- A hit opens and its start is handed on (R30). -/
def startHit (c : ChannelNo) (base amplitude : Nat) (s : State) : State :=
  let h := openedHit s c base amplitude
  deliverStart c h (s.onChannel c fun ch => { ch with detector := .inHit, hit := some h })

/-- A crossing in an open hit (R31). -/
def crossedHit (t : Word) (amplitude : Nat) (h : OpenHit) : OpenHit :=
  { h with
    counts := satAdd top16 h.counts 1
    peak := max h.peak (min 100 amplitude)
    lastCrossing := t
    hdtLeft := h.hitDef.hdt * ticksPerMicrosecond }

/-- A hit end is handed to its receiver, which takes what follows from it, but for a cut of every open hit: there it only notes the
end, and the close of every event and the abort or abandoning of the attempt come next (R55, R56, R141, R142; log entry 20). -/
def deliverEnd (cutAll : Bool) (c : ChannelNo) (r : Receiver) (e : HitEnd) (s : State) : State :=
  match r with
  | .correlator => if cutAll then noteCorrEnd c e s else corrHitEnd c e s
  | .tester => if cutAll then noteHitEnd c e s else testHitEnd c e s

/-- The detector after a hit that ends normally or LONG: LOCKOUT for the hit's HLT, ARMED when it is 0 (R32, R33). -/
def Channel.afterHit (h : OpenHit) (ch : Channel) : Channel :=
  if h.hitDef.hlt = 0 then { ch with hit := none }.armed
  else { ch with hit := none, detector := .lockout, lockout := some (h.hitDef.hlt * ticksPerMicrosecond) }

/-- A hit ends by one of its timers (R32, R33). -/
def endHit (c : ChannelNo) (h : OpenHit) (long : Bool) (s : State) : State :=
  deliverEnd false c h.receiver (endOf h long false) (s.onChannel c (Channel.afterHit h))

/-- A cut of the channel's open hit, if any; `after` is what the detector becomes (R35). -/
def cutHit (cutAll : Bool) (after : Channel → Channel) (c : ChannelNo) (s : State) : State :=
  match (s.channel c).hit with
  | none => s
  | some h => deliverEnd cutAll c h.receiver (endOf h false true) (s.onChannel c fun ch => after { ch with hit := none })

/-- Every open hit is cut, and its detector enters ARMED (R38, R39). -/
def cutHits (s : State) : State := allChannels.foldl (fun s c => cutHit true Channel.armed c s) s

/-! ## Channel states (R22 to R26) -/

/-- A bias-on request: an OFF or FAULT channel becomes SETTLING; any other takes it as met (R22). -/
def biasOn1 (code : Nat) (c : ChannelNo) (s : State) : State :=
  match (s.channel c).state with
  | .off | .fault => mouldFollow c (s.onChannel c fun ch => { ch with state := .settling, settle := some (settleTicks code) })
  | _ => s

/-- The record of a channel whose bias is removed. -/
def Channel.unbiased (st : ChannelState) (ch : Channel) : Channel :=
  { ch.idled with state := st, settle := none, route := .correlator, drive := none }

/-- A bias-off request: an open hit is cut, bias is removed and the channel becomes OFF (R25). -/
def biasOff1 (c : ChannelNo) (s : State) : State :=
  let s := cutHit false Channel.idled c s
  if (s.channel c).state = .off then s else mouldFollow c (s.onChannel c (Channel.unbiased .off))

/-- A channel becomes FAULT: reported at once, and a CHANNEL_FAULT condition is handed on (R23, R24, R26; log entry 28). -/
def faultChannel (c : ChannelNo) (s : State) : State :=
  let s := mouldFollow c (s.onChannel c (Channel.unbiased .fault))
  testerFollow c (handCondition .channelFault (some c) s.timer.clock s)

/-- A bias overload of a LIVE or PULSING channel (R24). -/
def overload (c : ChannelNo) (s : State) : State := faultChannel c (cutHit false Channel.idled c s)

/-- The settle timer expires with this bias current (R23). -/
def settleChannel (c : ChannelNo) (microamps : Nat) (s : State) : State :=
  if microamps ≤ biasLimit then mouldFollow c (s.onChannel c fun ch => { ch with state := .live, settle := none }.armed)
  else faultChannel c s

/-- Bias-on requests to every used channel (R116, R122), in the description's order, the model's choice (log entry 42). -/
def biasOnUsed (s : State) : State := s.mould.used.foldl (fun s' c => biasOn1 s.mould.settleCode c s') s

/-- Bias-off requests to every used channel (R56, R119, R121, R123), one at a time in the description's order, the model's choice (log
entry 42). -/
def biasOffUsed (s : State) : State := s.mould.used.foldl (fun s' c => biasOff1 c s') s

/-- Every base threshold becomes unset (R27). -/
def unsetThresholds (s : State) : State := allChannels.foldl (fun s c => s.onChannel c fun ch => { ch with base := none }) s

end Sys2Proof.Machine
end

