-- ==== Sys2Proof/Machine/MouldOps.lean ====
section
/-! DEFINITION. The mould manager (06_mould_mounting_and_mould_context.md): context saves, leaving, the clamp and mould-present
events, the mount's phases, and the ends of a MOUNT or DISMOUNT. -/

namespace Sys2Proof.Machine

open Sys2Proof

/-! ## Leaving (R104, R120) -/

/-- The mould state becomes EMPTY: tables discarded, base thresholds unset, the record's items none or 0 (R120 steps 1 to 4; log
entry 25). A read still on the bus is left to its end (log entry 17). -/
def leaveMould (s : State) : State :=
  (unsetThresholds (discardTables s)).onMould fun m =>
    { m with
      state := .empty, identity := none, offset := none, used := [], phase := .none, read := .none
      strayRead := m.strayRead || decide (m.read ≠ .none)
      fixed := none, timer := none, cyclesWatched := 0, saveCount := 0, checkpoint := 0, pendingSave := none }

/-- The order in hand ends with a result, after the mould has left (R111, R115, R120, R123). -/
def endOrder (r : OrderResult) (s : State) : State := dropOrder (answerOrder r (leaveMould s))

/-- The mould has left and a mirror is asked for (R120, R123). -/
def leaveWithMirror (s : State) : State := requestMirror (leaveMould s)

/-- The DISMOUNT completes (R120). -/
def completeDismount (r : OrderResult) (s : State) : State := requestMirror (endOrder r s)

/-! ## Context saves (R126 to R128) -/

/-- The exchange unit's answer to a save offer (R126). -/
inductive SaveAnswer where
  | created | noRoom | notActive
  deriving DecidableEq, Repr

/-- The record extent of the mounting fits the area in use (R126). -/
def mountingFits (s : State) : Bool :=
  recordFits s.xu.geometry (s.mould.offset.getD 0) (recordExtent s.mould.used.length (pathsOf s).length (zonesOf s).length)

/-- The answer to an offer; NOT_ACTIVE is judged before NO_ROOM (R126; log entry 24). -/
def saveAnswer (s : State) : SaveAnswer :=
  if !active s || !mountingFits s then .notActive else if queueRoom s then .created else .noRoom

/-- The context copy of a save (Table 37). -/
def contextCopy (by' : SavedBy) (count : Word) (s : State) : ContextCopy :=
  { savedBy := by', saveCount := count, cyclesWatched := s.mould.cyclesWatched, zones := (zonesOf s).map contextZone
    velocities := (pathsOf s).map contextVelocity }

/-- The offset of the mounting's context part (Table 57). -/
def mountingContext (s : State) : Nat :=
  s.mould.offset.getD 0 + contextOffset s.mould.used.length (pathsOf s).length (zonesOf s).length

/-- The save job is created: the save count rises by one and the copy is fixed (R126, R128). -/
def createSave (by' : SavedBy) (s : State) : State :=
  let s := s.onMould fun m => { m with saveCount := m.saveCount + 1, pendingSave := none }
  addJob (.save (mountingContext s) (contextCopy by' s.mould.saveCount s)) s

/-- The save becomes the pending save, superseding an earlier one (R126). -/
def holdSave (by' : SavedBy) : State → State := State.onMould fun m => { m with pendingSave := some by' }

/-- A context save is offered, with what follows from each answer (R126, Table 36; R120, R123). -/
def offerSave (by' : SavedBy) (s : State) : State :=
  match saveAnswer s, by' with
  | .created, .unplanned => leaveWithMirror (createSave by' s)
  | .created, _ => createSave by' s
  | .noRoom, _ => holdSave by' s
  | .notActive, .checkpoint => holdSave by' s
  | .notActive, .dismount => completeDismount .nothingSaved s
  | .notActive, .unplanned => leaveWithMirror s

/-- A pending DISMOUNT or UNPLANNED save is offered again (Table 36). -/
def offerPending (s : State) : State :=
  match s.mould.pendingSave with
  | some .dismount => offerSave .dismount s
  | some .unplanned => offerSave .unplanned s
  | _ => s

/-- A pending checkpoint is offered again, in any mould state but DISMOUNTING (Table 36). -/
def offerCheckpoint (s : State) : State :=
  if s.mould.pendingSave = some .checkpoint ∧ s.mould.state ≠ .dismounting then offerSave .checkpoint s else s

/-- The exchange unit reports the end of a save job; a DISMOUNT save completes the order (R127). -/
def saveEnded (by' : SavedBy) (written : Bool) (s : State) : State :=
  if by' = .dismount ∧ s.mould.state = .dismounting then completeDismount (if written then .ok else .nothingSaved) s else s

/-! ## Cut and bias (R39, R56, R119, R121, R123) -/

/-- The mould manager's cut request: open hits end CUT, then open events close CUT (R39, R56). -/
def cutRequest (s : State) : State := cutEvents (cutHits s)

/-- A condition of the clamp or the mould, at the present cycle and tick (R121 to R123). -/
def mouldCondition (k : Condition) (s : State) : State := handCondition k none s.timer.clock s

/-! ## The phases of a MOUNT (R115, R116) -/

/-- The mount timer starts at the mount timeout in force (R107, R115). -/
def startMountTimer : State → State :=
  State.onMould fun m => { m with phase := .clampWait, timer := some (m.mountTimeout * 1000 * ticksPerMillisecond) }

/-- The mount enters SETTLING (R115, R116). -/
def enterSettling (s : State) : State := biasOnUsed (s.onMould fun m => { m with phase := .settling, timer := none })

/-- The mount enters CLAMP_WAIT (R115). -/
def enterClampWait (s : State) : State :=
  if clampLocked s then enterSettling (s.onMould fun m => { m with phase := .clampWait }) else startMountTimer s

/-- The mount timer expires in CLAMP_WAIT (R115). -/
def mountTimeout (s : State) : State := endOrder .clampTimeout (biasOffUsed s)

/-- A MOUNT in phase READING ends CANCELLED at a cleared enable or a bus error (R111, R114). -/
def cancelReading (s : State) : State :=
  if s.mould.state = .mounting ∧ s.mould.phase = .reading then endOrder .cancelled s else s

/-! ## Clamp and mould-present events (R121 to R123) -/

/-- CLAMP locks (R115, R122). -/
def clampLocks (s : State) : State :=
  match s.mould.state, s.mould.phase with
  | .mounting, .clampWait => enterSettling s
  | .suspended, _ => biasOnUsed (mouldCondition .clampLocked s)
  | _, _ => s

/-- CLAMP unlocks (R116, R121, R122). -/
def clampUnlocks (s : State) : State :=
  match s.mould.state, s.mould.phase with
  | .watching, _ | .degraded, _ =>
    mouldCondition .clampOpen (biasOffUsed (abortTests (cutRequest (s.onMould fun m => { m with state := .suspended }))))
  | .mounting, .settling => biasOffUsed (startMountTimer s)
  | .suspended, _ => mouldCondition .clampOpen (biasOffUsed s)
  | _, _ => s

/-- Steps 1 to 4 of an unplanned dismount (R123). -/
def pullMould (s : State) : State := mouldCondition .mouldPulled (biasOffUsed (abortTests (cutRequest s)))

/-- MPRES falls (R123). -/
def mouldPulled (s : State) : State :=
  match s.mould.state with
  | .mounting => endOrder .cancelled (pullMould s)
  | .watching | .degraded | .suspended =>
    offerSave .unplanned ((pullMould s).onMould fun m => { m with state := .dismounting, pendingSave := none })
  | .empty | .dismounting => s

/-! ## DISMOUNT (R118, R119) -/

/-- A DISMOUNT cancels the MOUNT in hand: CANCELLED, then NOTHING_SAVED, then a mirror (R118). -/
def cancelMount (o : OrderRef) (s : State) : State :=
  requestMirror (giveResult o .nothingSaved (endOrder .cancelled (biasOffUsed s)))

/-- A DISMOUNT of a mounted mould (R119). -/
def dismountMould (o : OrderRef) (s : State) : State :=
  let s := s.onMould fun m => { m with state := .dismounting, order := .dismount o, pendingSave := none }
  offerSave .dismount (biasOffUsed (abortTests (cutRequest s)))

/-- A taken DISMOUNT (R118). -/
def takeDismount (o : OrderRef) (s : State) : State :=
  match s.mould.state with
  | .empty | .dismounting => giveResult o .noMould s
  | .mounting => cancelMount o s
  | .watching | .degraded | .suspended => dismountMould o s

/-! ## MOUNT (R110 to R114) -/

/-- The result of a MOUNT refused at its take, by the first line of Table 34 that holds (R110). -/
def mountRefusal (offset : Nat) (s : State) : Option OrderResult :=
  if s.mould.state ≠ .empty then some .mounted
  else if !mouldPresent s then some .noMould
  else if offset % 8 ≠ 0 ∨ !recordFits s.xu.geometry offset 8 then some .areaBounds
  else none

/-- An accepted MOUNT: MOUNTING, phase READING, with the fixed part's read issued (R110, R111). -/
def acceptMount (o : OrderRef) (offset : Nat) (fresh : Bool) : State → State :=
  State.onMould fun m =>
    { m with state := .mounting, phase := .reading, read := .fixed, offset := some offset, order := .mount o
             fresh := if fresh then .flag else .none }

/-- A taken MOUNT (R110). -/
def takeMount (o : OrderRef) (offset : Nat) (fresh : Bool) (s : State) : State :=
  match mountRefusal offset s with
  | some r => giveResult o r s
  | none => acceptMount o offset fresh s

/-- The fixed part is read: the extent of the whole record is checked, and the description read is issued (R111). -/
def takeFixed (f : FixedPart) (s : State) : State :=
  let s := s.onMould fun m => { m with read := .none }
  if recordFits s.xu.geometry (s.mould.offset.getD 0) (recordExtent f.channelCount f.pathCount f.zoneCount) then
    s.onMould fun m => { m with fixed := some f, read := .description }
  else endOrder .areaBounds s

/-- The base thresholds of the description (R27, R113). -/
def setThresholds (cs : List ChannelSpec) (s : State) : State :=
  cs.foldl (fun s c => s.onChannel (channelOf c.chan) fun ch => { ch with base := some c.threshold }) s

/-- A valid description is brought into use (R113). -/
def adoptDescription (d : Description) (s : State) : State :=
  let s := s.onMould fun m =>
    { m with identity := some d.fixed.identity, used := d.channels.map fun c => channelOf c.chan, settleCode := d.fixed.settleCode
             cyclesWatched := 0, saveCount := 0 }
  standTables d (setThresholds d.channels s)

/-- The description is read and validated (R112 to R114): a FRESH mount leaves the context aside. -/
def takeDescription (d : Description) (s : State) : State :=
  let s := s.onMould fun m => { m with read := .none }
  match validate s.variant d with
  | some (item, index) => endOrder (.badDescription item index) s
  | none =>
    let s := adoptDescription d s
    if s.mould.fresh = .flag then enterClampWait s else s.onMould fun m => { m with read := .context }

/-- The judgement of a context (R114): none when it is to be loaded. -/
def contextFault (c : ContextRead) (s : State) : Option FreshReason :=
  if c.formatTag ≠ formatTag then some .format
  else if c.zoneCount ≠ (zonesOf s).length ∨ c.pathCount ≠ (pathsOf s).length then some .counts
  else none

/-- The context is read, and loaded or ignored; the mount enters CLAMP_WAIT (R114, R115). -/
def takeContext (c : ContextRead) (s : State) : State :=
  let s := s.onMould fun m => { m with read := .none }
  match contextFault c s with
  | some r => enterClampWait (s.onMould fun m => { m with fresh := r })
  | none =>
    enterClampWait ((loadContext c s).onMould fun m =>
      { m with cyclesWatched := c.cyclesWatched, saveCount := c.saveCount, loadedSavedBy := c.savedBy })

/-! ## Mould cycles (R124, R125) -/

/-- A checkpoint falls due at this mould cycle close (R125). -/
def checkpointDue (m : MouldManager) : Bool := decide (0 < m.checkpointInterval) && decide (m.checkpointInterval ≤ m.checkpoint + 1)

/-- A mould cycle is counted: cycles watched and the checkpoint counter; a checkpoint that falls due becomes the pending one, to be
offered at this close (R124 to R126). -/
def countMouldCycle (m : MouldManager) : MouldManager :=
  { m with
    cyclesWatched := satAdd top32 m.cyclesWatched 1
    checkpoint := if m.checkpointInterval = 0 ∨ checkpointDue m then 0 else m.checkpoint + 1
    pendingSave := if checkpointDue m then some .checkpoint else m.pendingSave }

/-- The mould manager takes a close (R124, R125). -/
def mouldClose (s : State) : State := if watching s then s.onMould countMouldCycle else s

end Sys2Proof.Machine
end

