-- ==== Sys2Proof/Machine/Area.lean ====
section
/-! DEFINITION. The exchange unit's own sequences (08_exchange_area_and_orders.md): the ends of jobs, enable and disable, bus errors,
scans, the programme take and the dispatch of orders. -/

namespace Sys2Proof.Machine

open Sys2Proof

/-! ## Job ends (R160 to R163) -/

/-- A change of area state is reported to the mould manager, which re-offers a pending save (R149, Table 36). -/
def areaChanged (s : State) : State := offerPending s

/-- The job in issue leaves the queue; no job is in issue. -/
def popJob : State → State := State.onXu fun x => { x with queue := x.queue.tail, issue := none }

/-- A written journal record that met the notice mask becomes the last noticed one (R166). One whose last write is accepted after EN
clear or in AREA_FAULT does not: the model's choice (log entry 47). -/
def noteWritten (b : JobBody) (s : State) : State :=
  match b with
  | .cycle _ seq true _ | .condition _ seq true _ => if active s then s.onXu fun x => { x with lastNoticed := some seq } else s
  | _ => s

/-- The attention level is evaluated after a record write or a result write (R166). -/
def attnAfterJob (b : JobBody) (s : State) : State :=
  match b with
  | .cycle _ _ _ _ | .condition _ _ _ _ | .located _ _ _ | .result _ _ _ _ => evaluateAttn s
  | .mirror _ | .save _ _ => s

/-- The end of a save job is reported to the mould manager (R127). -/
def reportSave (b : JobBody) (written : Bool) (s : State) : State :=
  match b with
  | .save _ c => saveEnded c.savedBy written s
  | _ => s

/-- The job in issue has ended with its last operation accepted: departure, placements, reports, and the next job's issue (R162,
R163, R166; log entry 21). -/
def jobDone (b : JobBody) (s : State) : State :=
  issueNext (offerPending (reportSave b true (placeWaiting (attnAfterJob b (noteWritten b (popJob s))))))

/-- The cell entry of an order whose final compare-and-swap is done: ANSWERED with notify, FREE otherwise, or FREE when software had
written over the cell (R160). -/
def entryAfter (wrote notify : Bool) : CellEntry := if wrote && notify then .answered else .free

/-- The entry of a result job's order, when it still stands, takes its last state (R160). -/
def settleEntry (k : CellNo) (take : Word) (e : CellEntry) (s : State) : State :=
  match s.xu.cells[k] with
  | .inHand t _ => if t = take then s.putCell k e else s
  | _ => s

/-- The failing job's end at a bus error: a result's entry becomes FREE, a save is reported FAILED, any other is lost (R152). -/
def jobFailed (s : State) : State :=
  match s.xu.queue with
  | [] => s
  | j :: _ =>
    let s := popJob s
    match j.body with
    | .result k take _ _ => settleEntry k take .free s
    | .save _ c => saveEnded c.savedBy false s
    | _ => s

/-! ## Scans (R153 to R158) -/

/-- The scan has ended: a rescan mark starts a new scan, otherwise the unit is IDLE (R153). -/
def endScan (s : State) : State :=
  match s.xu.scan.mark with
  | some kind => startScan kind s
  | none => s.onXu fun x => { x with scan := { x.scan with phase := .idle, abandoned := false, mark := none } }

/-- A scan in progress is abandoned; its operation on the bus runs to its end (R151; log entry 15). -/
def abandonScan : State → State :=
  State.onXu fun x =>
    { x with scan := { x.scan with abandoned := decide (x.scan.phase ≠ .idle), mark := none } }

/-- The scan goes on to an operation. -/
def scanTo (p : ScanPhase) : State → State := State.onXu fun x => { x with scan := { x.scan with phase := p } }

/-- The state word that the board read gave for a cell. -/
def wordOf (s : State) (k : CellNo) : Word := s.xu.scan.words.getD k.val 0

/-- A cell's entry may be taken: FREE or ANSWERED (R158). -/
def CellEntry.takeable : CellEntry → Bool
  | .free | .answered => true
  | .inHand _ _ | .resultWaiting _ _ _ => false

/-- The cells are treated in order, up to the first take (R158). -/
def treatCells : List CellNo → State → State
  | [], s => endScan s
  | k :: ks, s =>
    let e := s.xu.cells[k]
    if decide (wordOf s k = wordPosted) && e.takeable then scanTo (.take k) s
    else if decide (wordOf s k = wordEmpty) && decide (e = .answered) then treatCells ks (s.putCell k .free)
    else treatCells ks s

/-- The cells are treated, and ATTN is evaluated after them (R158, R166; log entry 22). -/
def treatBoard (ks : List CellNo) (s : State) : State := evaluateAttn (treatCells ks s)

/-- The cells after one. -/
def cellsAfter (k : CellNo) : List CellNo := allCells.filter fun j => decide (k.val < j.val)

/-- The part's compare-and-swap puts a state word into a cell (R161). -/
def putStateWord (base : Addr) (k : CellNo) (w : Word) : State → State := State.land ⟨addrAt base (cellOffset k), bytesWord w⟩

/-! ## The programme take (R156, R157) -/

/-- The programme is due and this scan takes it (R156). -/
def takesProgramme (s : State) : Bool :=
  decide (s.xu.lastTaken ≠ some s.xu.scan.generation)
    && (decide (s.xu.scan.kind = .close) || decide (s.timer.press = .stopped))

/-- A window of the open cycle at an installation while STOPPED (Table 9). -/
def reinstallWindow (t : CycleTimer) (w : Window) (d : WindowDef) : Window :=
  match w.state with
  | .disabled | .waiting =>
    { defn := d
      state :=
        if d.anchor = .none then .disabled else if (anchorCapture t d.anchor).isSome then .spent else .waiting }
  | .pending | .open | .spent => w

/-- Every window at an installation while STOPPED. -/
def reinstallWindows (t : CycleTimer) (d : Vector WindowDef 8) : Vector Window 8 :=
  let w := t.windows
  #v[reinstallWindow t w[0] d[0], reinstallWindow t w[1] d[1], reinstallWindow t w[2] d[2], reinstallWindow t w[3] d[3],
     reinstallWindow t w[4] d[4], reinstallWindow t w[5] d[5], reinstallWindow t w[6] d[6], reinstallWindow t w[7] d[7]]

/-- A timing part is delivered: pending while RUNNING, installed at once while STOPPED (R18, R19). -/
def deliverTiming (p : TimingPart) (t : CycleTimer) : CycleTimer :=
  match t.press with
  | .running => { t with pendingPart := some p }
  | .stopped => { t with installed := p, pendingPart := none, windows := reinstallWindows t p.windows }

/-- The effective programme is delivered to every block at one instant (R157). -/
def deliverProgramme (p : Programme) (s : State) : State :=
  { s with
    timer := deliverTiming p.timing s.timer
    front := { s.front with hitDef := p.hitDef }
    evid := { s.evid with part := p.evidence }
    mould := { s.mould with mountTimeout := p.mountTimeout, checkpointInterval := p.checkpointInterval }
    xu := { s.xu with noticeMask := p.noticeMask, listSelection := p.listSelection, listLevel := p.listLevel } }

/-- The flags of a take: PROGRAMME_TAKEN, and FIELDS_HELD when a group was held (R157). -/
def takeFlags (page : List Byte) : Half := flagProgrammeTaken ||| flagIf (decide (0 < heldCount page)) flagFieldsHeld

/-- The echo block's write (R157). -/
def echoWrite (page : List Byte) (p : Programme) (s : State) : BusWrite :=
  ⟨addrAt s.xu.scan.base echoOffset, echoBytes s.freeNext s.xu.scan.generation (heldCount page) (firstHeld page) p⟩

/-- The programme page is taken: delivered, marked, and its echo issued (R156, R157). -/
def takePage (page : List Byte) (s : State) : State :=
  let p := takeProgramme (effectiveProgramme s) page
  let w := echoWrite page p s
  let s := accrue (takeFlags page) (deliverProgramme p s)
  scanTo (.echo w) ((s.onXu fun x => { x with lastTaken := some x.scan.generation }).useFree)

/-! ## Dispatch (R158, R159) -/

/-- An order that the scan's cell read gave is put in hand and dispatched, and the scan goes on to the next cell; on an abandoned scan
the order is not carried out (R151, R158, R159). -/
def runOrder (head : OrderHead) (owner : OrderRef → State → State) (s : State) : State :=
  match s.xu.scan.phase with
  | .cellRead k =>
    if s.xu.scan.abandoned then endScan s
    else
      let take := s.xu.takeNumber
      treatBoard (cellsAfter k)
        (owner { cell := k, take := take, tag := head.tag } (s.putCell k (.inHand take (some head))))
  | _ => s

/-! ## Enable and disable (R150, R151) -/

/-- The sequences and geometry fixed at an enable (R150 steps 1, 3, 4). -/
def fixHeader (bs : List Byte) : State → State :=
  State.onXu fun x =>
    { x with
      geometry := headerGeometry bs
      nextJournal := some (w32 bs 0x18), nextLocated := some (w32 bs 0x1C)
      consumedJournal := some (w32 bs 0x20), consumedLocated := some (w32 bs 0x24)
      lastTaken := none, lastNoticed := none }

/-- The capability page's write (R150). -/
def capabilityWrite (s : State) : BusWrite := ⟨addrAt (baseOf s) capabilityOffset, capabilityBytes s.variant⟩

/-- The header read of the enable is checked (R150). -/
def checkHeader (bs : List Byte) (s : State) : State :=
  if headerCode bs = 0 then
    (fixHeader bs s).onXu fun x => { x with enabling := .capabilityWrite (capabilityWrite s) }
  else areaChanged (s.onXu fun x => { x with area := .headerInvalid, checkCode := headerCode bs, enabling := .none })

/-- The capability write is accepted: ACTIVE, and a LOOK scan (R150 steps 5, 6). -/
def becomeActive (w : BusWrite) (s : State) : State :=
  let s := (s.land w).onXu fun x => { x with area := .active, enabling := .none }
  askScan .look (evaluateAttn (areaChanged s))

/-- An enable's operation on the bus, left to its end (R151; log entry 16). -/
def strayOf : EnablePhase → StrayEnable
  | .none | .waiting => .none
  | .headerRead => .headerRead
  | .capabilityWrite w => .capabilityWrite w

/-- The enable in progress is abandoned (R151). -/
def abandonEnable : State → State :=
  State.onXu fun x =>
    { x with enabling := .none, strayEnable := if strayOf x.enabling = .none then x.strayEnable else strayOf x.enabling }

/-- The DISCARDED saves of a discarded queue are reported (R127, R151). -/
def reportDiscarded (js : List Job) (s : State) : State := js.foldl (fun s j => reportSave j.body false s) s

/-- The jobs not in issue. -/
def waitingJobs (x : Exchange) : List Job := if x.issue = none then x.queue else x.queue.tail

/-- The sequences held are discarded (R175). -/
def dropSequences (x : Exchange) : Exchange :=
  { x with nextJournal := none, nextLocated := none, consumedJournal := none, consumedLocated := none }

/-- What EN clear does to the exchange unit (R151, R175). The job in issue is carried to its last write. -/
def clearUnit (x : Exchange) : Exchange :=
  { dropSequences x with
    en := false, area := .unconfigured
    queue := if x.issue = none then [] else x.queue.take 1
    issue := x.issue.map fun i => { i with onBus := true }
    carry := none, cells := Vector.replicate 8 .free, lastNoticed := none, attn := false }

/-- EN is cleared (R151). In an enable, that is abandoned, with the sequences its header gave (R175). -/
def disableArea (s : State) : State :=
  if s.xu.enabling ≠ .none then (abandonEnable s).onXu fun x => { dropSequences x with en := false }
  else
    let js := waitingJobs s.xu
    areaChanged (cancelReading (reportDiscarded js (abandonScan (s.onXu clearUnit))))

/-! ## Bus errors (R152) -/

/-- A bus error moves the area from ACTIVE, or from an enable in progress, to AREA_FAULT (R152). -/
def faults (x : Exchange) : Bool := decide (x.area = .active) || decide (x.enabling ≠ .none)

/-- Waiting order results are discarded, and their entries become FREE (R152). -/
def dropWaiting (s : State) : State :=
  allCells.foldl
    (fun s k =>
      match s.xu.cells[k] with
      | .resultWaiting _ _ _ => s.putCell k .free
      | _ => s)
    s

/-- The area becomes AREA_FAULT with this code, where R152 says so; `own` ends the failing operation. -/
def areaFault (code : Nat) (own : State → State) (s : State) : State :=
  if faults s.xu then
    let s := (abandonEnable s).onXu fun x => { x with area := .areaFault, checkCode := code, attn := false }
    areaChanged (cancelReading (dropWaiting (own (abandonScan s))))
  else own s

/-- The code of the scan's failing operation: 8 for a read, 9 for a write or compare-and-swap (R152). -/
def scanFaultCode : ScanPhase → Nat
  | .echo _ | .take _ => 9
  | _ => 8

/-- The enable's failing operation (R151, R152): an abandoned enable's only ends. -/
def enableError (s : State) : State :=
  match s.xu.enabling with
  | .headerRead => areaFault 8 (State.onXu fun x => { x with strayEnable := .none }) s
  | .capabilityWrite _ => areaFault 9 (State.onXu fun x => { x with strayEnable := .none }) s
  | .none | .waiting => s.onXu fun x => { x with strayEnable := .none }

/-- The scan's failing operation (R152). -/
def scanError (s : State) : State :=
  if s.xu.scan.phase = .idle then s else areaFault (scanFaultCode s.xu.scan.phase) endScan s

/-- The mould manager's failing record read, or that of a mount that is over (R152; log entry 17). -/
def mountError (s : State) : State :=
  if s.mould.read ≠ .none then areaFault 8 id (s.onMould fun m => { m with read := .none })
  else if s.mould.strayRead then areaFault 8 id (s.onMould fun m => { m with strayRead := false })
  else s

/-- The failing operation of the job in issue (R152). -/
def jobError (s : State) : State :=
  match s.xu.issue with
  | some i => if i.onBus then areaFault 9 jobFailed s else s
  | none => s

/-- A bus error of a unit (R152). -/
def busErrorOf : BusUnit → State → State
  | .enable => enableError
  | .scan => scanError
  | .mount => mountError
  | .job => jobError

end Sys2Proof.Machine
end

