-- ==== Sys2Proof/Machine/CycleClose.lean ====
section
/-! DEFINITION. The line edges (R4, R10, R11, R176) and the cycle close they bring about, through every block in its order (R4 to R6,
R38, R55, R88, R124, R141, R154). -/

namespace Sys2Proof.Machine

open Sys2Proof

/-! ## Cycle open and close of the timer (R4 to R6, R13) -/

/-- A window at a cycle open that a CYC edge brings (R13). -/
def openingWindow (d : WindowDef) : Window :=
  { defn := d
    state :=
      match d.anchor with
      | .none => .disabled
      | .phase _ => .waiting
      | .cyc => if d.offset = 0 then .open else .pending }

/-- The timing part of the cycle that opens: a pending part is installed (R6, R18). -/
def openingPart (t : CycleTimer) : TimingPart := t.pendingPart.getD t.installed

/-- The cycle timer at the cycle open of a selected CYC edge (R6, R8, R13). -/
def openCycle (t : CycleTimer) : CycleTimer :=
  { clock := 0, number := t.number + 1, openedByReset := false, wrapped := false, stallMark := false
    captures := ⟨none, none, none, none⟩, extras := ⟨0, 0, 0, 0⟩, press := .running, installed := openingPart t, pendingPart := none
    windows := mapWindows openingWindow (openingPart t).windows }

/-- The close kind (Table 5). -/
def closeKind (t : CycleTimer) : CloseKind := if t.openedByReset then .preamble else if t.stallMark then .long else .normal

/-- The length of the closing cycle (Table 5). -/
def closeLength (t : CycleTimer) : Word := if t.wrapped then BitVec.allOnes 32 else t.clock

/-! ## The cycle close through the blocks -/

/-- The source's release reaches its channel in the chosen part of the close (R87; log entry 11). -/
def releaseIn (chosen part : Nat) (s : State) : State := if chosen = part then releaseHead s else s

/-- The head test is LISTENING, so that its source is to be released (R141). -/
def releasing (s : State) : Bool :=
  match s.tester with
  | [] => false
  | t :: _ => decide (t.state = .listening)

/-- The part of the close in which a source is released: a free value, drawn only when a source is to be released (log entry 11). -/
def releasePart (s : State) : Nat := if releasing s then Config.releaseSlot s.freeNext % 3 else 0

/-- A LISTENING head draws the free value of its release. -/
def drawRelease (s : State) : State := if releasing s then s.useFree else s

/-- What the exchange unit holds of the closing cycle (R5, R64, R95, R168). -/
def closeFacts (s : State) (tallies : Tallies) (r : CloseReport) : CloseFacts :=
  { number := s.timer.number, kind := closeKind s.timer, length := closeLength s.timer, wrapped := s.timer.wrapped
    stalled := s.timer.stallMark, captures := s.timer.captures, extras := s.timer.extras, mouldState := s.mould.state
    identity := identityWord s, tallies := tallies, changes := r.changes, rose := r.rose, latched := r.latched }

/-- The exchange unit takes the close: the cycle record, the mirror and the CLOSE scan (R154, R168, R169). -/
def exchangeClose (f : CloseFacts) (s : State) : State :=
  let r := formRecord f s.xu.accruals
  let s := placeRecord r (s.onXu fun x => { x with accruals := noAccruals })
  if active s then askScan .close (requestMirror s) else s

/-- The correlator takes the close: every event closes CUT (R55). -/
def corrClose (s : State) : State := cutEvents s

/-- The correlator's tallies are zeroed for the cycle that opens (R55, R64). -/
def zeroTally : State → State := State.onTallies fun _ => zeroTallies

/-- The acoustic part of a close: the tester's attempt forgotten, hits cut, events cut, with the release in its part of the close. -/
def closeSound (part : Nat) (s : State) : State :=
  releaseIn part 1 (corrClose (cutHits (releaseIn part 0 (testerClose s))))

/-- A cycle close (R4): the blocks in their order (log entries 27 and 28). -/
def cycleClose (s₀ : State) : State :=
  let part := releasePart s₀
  let s := closeSound part (drawRelease s₀)
  let facts := closeFacts { s with mould := { s.mould with state := s₀.mould.state } } s.corr.tallies (closeReport s)
  let s := releaseIn part 2 (evidenceClose (zeroTally s))
  let s := exchangeClose facts ((mouldClose s).onTimer openCycle)
  offerPending (offerCheckpoint s)

/-! ## Window changes of a clock value (R15) -/

/-- The clock has reached a PENDING window's open tick. -/
def opens (t : CycleTimer) (w : Window) : Bool := decide (w.state = .pending) && clockAt t (openTick t w.defn)

/-- The clock has reached an OPEN window's close tick. -/
def closes (t : CycleTimer) (w : Window) : Bool := decide (w.state = .open) && clockAt t (closeTick t w.defn)

/-- A window after the changes of this clock value (R15). -/
def steppedWindow (t : CycleTimer) (w : Window) : Window :=
  if opens t w then { w with state := .open } else if closes t w then { w with state := .spent } else w

/-- All window changes of this clock value, as one change (R15). -/
def stepWindows (t : CycleTimer) : CycleTimer := { t with windows := mapWindows (steppedWindow t) t.windows }

/-! ## Phase edges (R11, R14) -/

/-- A WAITING window anchored to the captured line becomes OPEN or PENDING (R14). -/
def anchoredWindow (p : PhaseLine) (w : Window) : Window :=
  if w.state = .waiting ∧ w.defn.anchor = .phase p then { w with state := if w.defn.offset = 0 then .open else .pending } else w

/-- The capture of a phase line becomes present, and the windows anchored to it are set (R11, R14). -/
def capturePhase (p : PhaseLine) (t : CycleTimer) : CycleTimer :=
  { t with captures := t.captures.put p (some t.clock), windows := mapWindows (anchoredWindow p) t.windows }

/-- A selected edge of a phase line (R11). A window that the capture opens is never seen open beside one that closes at this clock
value: every window change of the clock value comes with it (R15). -/
def phaseEdge (p : PhaseLine) (t : CycleTimer) : CycleTimer :=
  match t.captures.at p with
  | none => stepWindows (capturePhase p t)
  | some _ => { t with extras := t.extras.put p (satAdd 255 (t.extras.at p) 1) }

/-! ## Delivery of a line edge (R176) -/

/-- An edge of CYC (R4). -/
def cycEdge (rising : Bool) (s : State) : State := if selects s.timer.installed.cycEdge rising then cycleClose s else s

/-- An edge of a phase line (R10, R11). -/
def lineEdge (p : PhaseLine) (rising : Bool) (s : State) : State :=
  if selects (s.timer.installed.phaseEdge.at p) rising then s.onTimer (phaseEdge p) else s

/-- An edge delivered to its block (R176). -/
def deliverEdge (l : Line) (rising : Bool) (s : State) : State :=
  match l with
  | .cyc => cycEdge rising s
  | .feed => lineEdge .feed rising s
  | .vib => lineEdge .vib rising s
  | .tamp => lineEdge .tamp rising s
  | .strip => lineEdge .strip rising s
  | .mpres => if rising then s else mouldPulled s
  | .clamp => if rising then clampLocks s else clampUnlocks s

end Sys2Proof.Machine
end

