-- ==== Sys2Proof/Machine/Respond.lean ====
section
/-! DEFINITION. How every command answers: its effect when the part is not held in reset and the command's condition holds in the
state, and the same state otherwise (log entries 2 and 14). -/

namespace Sys2Proof.Machine

open Sys2Proof

/-- The outcome of a step. -/
abbrev Answer := Host.Outcome State Fault Refusal

/-- The effect `f` when the part is not held and the condition `due` holds; otherwise the state as it stands. -/
def respond (due : State → Bool) (f : State → State) (s : State) : Answer := .next (if !held s && due s then f s else s)

/-- The condition of a command that can come at any time. -/
def always (_ : State) : Bool := true

end Sys2Proof.Machine
end

