-- ==== Sys2Proof/Machine/AreaCommands.lean ====
section
/-! DEFINITION. The meanings of the register commands, the enable and the disable, the scan's completions, the job completions and the
bus error (R148 to R166). -/

namespace Sys2Proof.Machine

open Sys2Proof

/-! ## Registers (R148, R150, R151, R153) -/

/-- EN is set while it is 0: the enable starts, and the check code becomes 0 (R148 to R150). -/
def setEnable (s : State) : State := if s.xu.en then s else s.onXu fun x => { x with en := true, checkCode := 0, enabling := .waiting }

/-- EN is cleared while it is 1 (R148, R151). -/
def clearEnable (s : State) : State := if s.xu.en then disableArea s else s

/-- A write of XLOOK asks for a scan while ACTIVE (R148, R153). -/
def lookNow (s : State) : State := if active s then askScan .look s else s

/-- A write of a register (Table 45). -/
def writeRegister (r : Register) (v : Word) (s : State) : State :=
  match r with
  | .xbaseL => if s.xu.en then s else s.onXu fun x => { x with baseL := v &&& 0xFFFFF000 }
  | .xbaseH => if s.xu.en then s else s.onXu fun x => { x with baseH := v }
  | .xctl => if v.getLsbD 0 then setEnable s else clearEnable s
  | .xlook => lookNow s
  | .xstat | .xident => s

/-- REGISTER_WRITE (R148; log entry 29). -/
def execRegisterWrite (r : Register) (v : Word) (s : State) : Answer := respond always (writeRegister r v) s

/-- ENABLE (R150). -/
def execEnable (s : State) : Answer := respond always setEnable s

/-- The enable's wait is over: no job is in issue and no operation of an abandoned enable is on the bus (R150; log entry 16). -/
def headerReadDue (s : State) : Bool :=
  decide (s.xu.enabling = .waiting) && decide (s.xu.issue = none) && decide (s.xu.strayEnable = .none)

/-- ENABLE_HEADER_READ_START (R150). -/
def execEnableHeaderReadStart (s : State) : Answer :=
  respond headerReadDue (State.onXu fun x => { x with enabling := .headerRead }) s

/-- The header read is on the bus, of this enable or of an abandoned one, and 44 bytes answer it. -/
def headerAnswered (bytes : List Byte) (s : State) : Bool :=
  decide (bytes.length = 44) && (decide (s.xu.enabling = .headerRead) || decide (s.xu.strayEnable = .headerRead))

/-- The enable's header read completes; an abandoned one only ends (R150, R151). -/
def takeHeader (bytes : List Byte) (s : State) : State :=
  if s.xu.enabling = .headerRead then checkHeader bytes s else s.onXu fun x => { x with strayEnable := .none }

/-- ENABLE_HEADER_READ_DONE (R150). -/
def execEnableHeaderReadDone (bytes : List Byte) (s : State) : Answer := respond (headerAnswered bytes) (takeHeader bytes) s

/-- The capability write is accepted; that of an abandoned enable only lands (R150, R151). -/
def takeCapability (s : State) : State :=
  match s.xu.enabling, s.xu.strayEnable with
  | .capabilityWrite w, _ => becomeActive w s
  | _, .capabilityWrite w => (s.land w).onXu fun x => { x with strayEnable := .none }
  | _, _ => s

/-- CAPABILITY_WRITE_DONE (R150). -/
def execCapabilityWriteDone (s : State) : Answer := respond always takeCapability s

/-- DISABLE (R151). -/
def execDisable (s : State) : Answer := respond always clearEnable s

/-- LOOK (R153). -/
def execLook (s : State) : Answer := respond always lookNow s

/-! ## Scan completions (R155 to R158) -/

/-- The scan goes on with `f`, or, abandoned, ends with its operation (R151). -/
def scanOn (f : State → State) (s : State) : State := if s.xu.scan.abandoned then endScan s else f s

/-- The consumed sequences and the generation are taken (R155). -/
def takeScanHeader (bytes : List Byte) : State → State :=
  State.onXu fun x =>
    { x with
      consumedJournal := some (w32 bytes 0), consumedLocated := some (w32 bytes 4)
      scan := { x.scan with generation := w32 bytes 8 } }

/-- The header read of a scan (R155, R156). -/
def headerScanned (bytes : List Byte) (s : State) : State :=
  let s := evaluateAttn (takeScanHeader bytes s)
  scanTo (if takesProgramme s then .programme else .board) s

/-- SCAN_HEADER_READ_DONE (R155). -/
def execScanHeaderReadDone (bytes : List Byte) (s : State) : Answer :=
  respond (fun s => decide (s.xu.scan.phase = .header) && decide (bytes.length = 12)) (scanOn (headerScanned bytes)) s

/-- PROGRAMME_READ_DONE (R156, R157). -/
def execProgrammeReadDone (bytes : List Byte) (s : State) : Answer :=
  respond (fun s => decide (s.xu.scan.phase = .programme) && decide (bytes.length = 172)) (scanOn (takePage bytes)) s

/-- The echo write is accepted, and the scan reads the board (R157). -/
def echoDone (s : State) : State :=
  match s.xu.scan.phase with
  | .echo w => scanOn (scanTo .board) (s.land w)
  | _ => s

/-- ECHO_WRITE_DONE (R157). -/
def execEchoWriteDone (s : State) : Answer := respond always echoDone s

/-- The eight state words are read and the cells treated (R158). -/
def boardRead (bytes : List Byte) (s : State) : State :=
  treatBoard allCells (s.onXu fun x => { x with scan := { x.scan with words := boardWords bytes } })

/-- BOARD_READ_DONE (R158). -/
def execBoardReadDone (bytes : List Byte) (s : State) : Answer :=
  respond (fun s => decide (s.xu.scan.phase = .board) && decide (bytes.length = 32)) (scanOn (boardRead bytes)) s

/-- A cell is taken: the take number rises, the entry is IN_HAND, and the cell is read (R158). -/
def cellTaken (k : CellNo) (s : State) : State :=
  let s := s.onXu fun x => { x with takeNumber := x.takeNumber + 1 }
  scanTo (.cellRead k) (s.putCell k (.inHand s.xu.takeNumber none))

/-- A take fails: an ANSWERED entry of a cell found EMPTY becomes FREE, and the next cell is treated (R158). -/
def cellLeft (k : CellNo) (found : Word) (s : State) : State :=
  treatBoard (cellsAfter k) (if found = wordEmpty ∧ s.xu.cells[k] = .answered then s.putCell k .free else s)

/-- A take's compare-and-swap completes (R158, R161). -/
def takeDone (found : Word) (s : State) : State :=
  match s.xu.scan.phase with
  | .take k =>
    if found = wordPosted then scanOn (cellTaken k) (putStateWord s.xu.scan.base k wordTaken s) else scanOn (cellLeft k found) s
  | _ => s

/-- CELL_TAKE_CAS_DONE (R158). -/
def execCellTakeCasDone (found : Word) (s : State) : Answer := respond always (takeDone found) s

/-! ## Job completions (R160, R162) and bus errors (R152) -/

/-- The write of the job in issue that is on the bus. -/
def writeOnBus (s : State) : Option (Job × BusWrite) :=
  match s.xu.queue, s.xu.issue with
  | j :: _, some i => if i.onBus then (jobWrites j)[i.accepted]?.map fun w => (j, w) else none
  | _, _ => none

/-- The number of accepted operations rises; the next is issued but in AREA_FAULT (R149; log entry 18). -/
def bumpIssue : State → State :=
  State.onXu fun x =>
    { x with issue := x.issue.map fun i => { accepted := i.accepted + 1, onBus := decide (x.area ≠ .areaFault) } }

/-- The number of a job's accepted operations. -/
def acceptedCount (s : State) : Nat :=
  match s.xu.issue with
  | none => 0
  | some i => i.accepted

/-- The job's last write has been accepted and no compare-and-swap follows. -/
def lastWrite (j : Job) (accepted : Nat) : Bool :=
  match j.body with
  | .result _ _ _ _ => false
  | _ => decide (accepted + 1 = (jobWrites j).length)

/-- A write of the job in issue is accepted (R162). -/
def writeAccepted (s : State) : State :=
  match writeOnBus s with
  | none => s
  | some (j, w) => if lastWrite j (acceptedCount s) then jobDone j.body (s.land w) else bumpIssue (s.land w)

/-- JOB_WRITE_ACCEPTED (R162). -/
def execJobWriteAccepted (s : State) : Answer := respond always writeAccepted s

/-- The result job whose compare-and-swap is on the bus. -/
def casOnBus (s : State) : Option Job :=
  match s.xu.queue, s.xu.issue with
  | j :: _, some i => if i.onBus && decide (i.accepted = (jobWrites j).length) then some j else none
  | _, _ => none

/-- A result job's compare-and-swap completes, with the word found (R160). -/
def resultSettled (found : Word) (s : State) : State :=
  match casOnBus s with
  | none => s
  | some j =>
    match j.body with
    | .result k take notify r =>
      let hit := decide (found = wordTaken)
      let s := if hit then putStateWord j.base k (resultWord r) s else s
      jobDone j.body (settleEntry k take (entryAfter hit notify) s)
    | _ => s

/-- RESULT_STATE_CAS_DONE (R160). -/
def execResultStateCasDone (found : Word) (s : State) : Answer := respond always (resultSettled found) s

/-- BUS_ERROR (R152). -/
def execBusError (u : BusUnit) (s : State) : Answer := respond always (busErrorOf u) s

end Sys2Proof.Machine
end

