-- ==== Sys2Proof/Machine/BoardCommands.lean ====
section
/-! DEFINITION. The meanings of the reset and supply commands and of the line commands (R176, R179). -/

namespace Sys2Proof.Machine

open Sys2Proof

/-! ## Reset (R179) -/

/-- An input stage in reset: its filter timer is stopped. -/
def LineInput.stopped (l : LineInput) : LineInput := { l with timer := none }

/-- An input stage at power-on: no earlier raw level exists (R176; that it ceases at this instant is the model's choice, log entry 45). -/
def LineInput.poweredOn (l : LineInput) : LineInput := { l with raw := rawLevel false l.band, timer := none }

/-- An input stage at the end of a reset: the raw level is the starting level (R176). -/
def LineInput.started (l : LineInput) : LineInput := { l with filtered := l.raw, timer := none }

/-- Every block takes its values after reset; the board, the pins, the variant, the bytes in line-computer memory, the free values'
index and the waiting commands stand. An operation on the bus is forgotten, the model's choice (log entry 44). -/
def resetBlocks (s : State) : State :=
  { State.resetOf s.variant with
    board := s.board, lines := s.lines.all LineInput.stopped, area := s.area, freeNext := s.freeNext, pending := s.pending }

/-- The state with the board changed. -/
def State.onBoard (f : Board → Board) (s : State) : State := { s with board := f s.board }

/-- The reset has ended: the input stages take their starting levels (R7, R176). -/
def startUp (s : State) : State := { s with lines := s.lines.all LineInput.started }

/-- SUPPLY_OUT_OF_RANGE: the internal power-on reset is taken at once (R179). The lines' earlier raw levels are forgotten at this
instant, and a level the pin takes during the outage counts as earlier: the model's choice, which R176 leaves open (log entry 45). -/
def execSupplyOutOfRange (s : State) : Answer :=
  .next ({ resetBlocks s with lines := s.lines.all LineInput.poweredOn }.onBoard fun b =>
    { b with supplyOk := false, supplyDelay := none, powerOn := true })

/-- SUPPLIES_RETURN_WITHIN_RANGE: the 20 ms delay starts (R179). -/
def execSuppliesReturnWithinRange (s : State) : Answer :=
  .next (if s.board.supplyOk then s else s.onBoard fun b => { b with supplyOk := true, supplyDelay := some supplyDelayTicks })

/-- SUPPLY_RETURN_DELAY_EXPIRY: the power-on reset ends (R179). -/
def execSupplyReturnDelayExpiry (s : State) : Answer :=
  .next
    (if expired s.board.supplyDelay then
      let s := s.onBoard fun b => { b with supplyDelay := none, powerOn := false }
      if held s then s else startUp s
    else s)

/-- A reset pin goes low. -/
def Board.lower (pin : ResetPin) (b : Board) : Board :=
  match pin with
  | .rst => { b with rstLow := true }
  | .slot => { b with slotLow := true }

/-- A reset pin goes high. -/
def Board.raise (pin : ResetPin) (b : Board) : Board :=
  match pin with
  | .rst => { b with rstLow := false }
  | .slot => { b with slotLow := false }

/-- RST_LOW: the 10 µs qualification starts, unless a pin was low already (R179; log entry 13). -/
def execRstLow (pin : ResetPin) (s : State) : Answer :=
  .next (s.onBoard fun b => if pinLow b then b.lower pin else { b.lower pin with qualify := some qualifyTicks })

/-- RESET_TAKEN: every block is held at its values after reset (R179). -/
def execResetTaken (s : State) : Answer :=
  .next (if expired s.board.qualify then (resetBlocks s).onBoard fun b => { b with qualify := none, rstTaken := true } else s)

/-- RESET_END: when no reset pin is low, the qualification stops, and a reset in effect ends (R179). -/
def execResetEnd (pin : ResetPin) (s : State) : Answer :=
  .next
    (let t := s.onBoard (Board.raise pin)
    if pinLow t.board then t
    else
      let u := t.onBoard fun b => { b with qualify := none, rstTaken := false }
      if s.board.rstTaken && !held u then startUp u else u)

/-- FUNCTION_LEVEL_RESET: nothing is reset (R179). -/
def execFunctionLevelReset (s : State) : Answer := .next s

/-! ## Lines (R176) -/

/-- The input stage after its voltage changes: a raw level that differs starts the filter timer, one that returns stops it (R176). -/
def LineInput.moved (ticks millivolts : Nat) (l : LineInput) : LineInput :=
  let raw := rawLevel l.raw (bandOf millivolts)
  { l with band := bandOf millivolts, raw := raw, timer := if raw = l.filtered then none else some (l.timer.getD ticks) }

/-- LINE_RAW_CHANGE (R176). During a reset the raw level is followed and no timer runs (log entry 14), in an outage of the
supplies too, where a level so taken counts as an earlier one (the model's choice, log entry 45). -/
def execLineRawChange (line : Line) (millivolts : Nat) (s : State) : Answer :=
  .next
    (let l := (s.lines.at line).moved (filterTicks line) millivolts
    s.putLine line (if held s then l.stopped else l))

/-- The filter timer of a line has run out with the raw level still different (R176). -/
def filterDue (line : Line) (s : State) : Bool :=
  let l := s.lines.at line
  expired l.timer && decide (l.raw ≠ l.filtered)

/-- The filtered level takes the raw level, and the edge is delivered (R176). -/
def takeEdge (line : Line) (s : State) : State :=
  let l := s.lines.at line
  deliverEdge line l.raw (s.putLine line l.started)

/-- LINE_FILTER_EXPIRY (R176). -/
def execLineFilterExpiry (line : Line) (s : State) : Answer := respond (filterDue line) (takeEdge line) s

end Sys2Proof.Machine
end

