-- ==== Sys2Proof/Machine/ChannelCommands.lean ====
section
/-! DEFINITION. The meanings of the channel commands (R23, R24, R30 to R36, R42) and of an event's deadline (R52). -/

namespace Sys2Proof.Machine

open Sys2Proof

/-- The base threshold under which a crossing of this amplitude starts a hit: the channel is LIVE, its detector ARMED and not in the
instant of its entry, and the amplitude reaches the active threshold (R28, R30). -/
def hitBase (c : ChannelNo) (amplitude : Nat) (s : State) : Option Nat :=
  let ch := s.channel c
  match ch.base with
  | none => none
  | some b =>
    if ch.state = .live ∧ ch.detector = .armed ∧ ch.armedNow = false
        ∧ activeThreshold b (currentRaise s.timer) ≤ min 100 amplitude then some b
    else none

/-- HIT_START (R30). -/
def execHitStart (c : ChannelNo) (amplitude : Nat) (s : State) : Answer :=
  respond (fun s => (hitBase c amplitude s).isSome) (startHit c ((hitBase c amplitude s).getD 0) amplitude) s

/-- The open hit of a channel whose detector is IN_HIT. -/
def openHit (c : ChannelNo) (s : State) : Option OpenHit :=
  let ch := s.channel c
  if ch.detector = .inHit then ch.hit else none

/-- A half-wave of this amplitude crosses the held threshold of the channel's open hit (R31). -/
def crossingDue (c : ChannelNo) (amplitude : Nat) (s : State) : Bool :=
  match openHit c s with
  | none => false
  | some h => decide (h.threshold ≤ min 100 amplitude)

/-- A crossing is taken into the open hit (R31). -/
def takeCrossing (c : ChannelNo) (amplitude : Nat) (s : State) : State :=
  s.onChannel c fun ch => { ch with hit := ch.hit.map (crossedHit s.timer.clock amplitude) }

/-- HIT_CROSSING (R31). -/
def execHitCrossing (c : ChannelNo) (amplitude : Nat) (s : State) : Answer := respond (crossingDue c amplitude) (takeCrossing c amplitude) s

/-- The hit whose HDT has passed since its last crossing (R32). -/
def hdtDue (c : ChannelNo) (s : State) : Bool :=
  match openHit c s with
  | none => false
  | some h => decide (h.hdtLeft = 0)

/-- The hit whose maximum duration has passed since its arrival (R33). -/
def maxDue (c : ChannelNo) (s : State) : Bool :=
  match openHit c s with
  | none => false
  | some h => decide (h.maxLeft = 0)

/-- The channel's open hit ends by a timer (R32, R33). -/
def endOpenHit (c : ChannelNo) (long : Bool) (s : State) : State :=
  match openHit c s with
  | none => s
  | some h => endHit c h long s

/-- HDT_EXPIRY (R32). -/
def execHdtExpiry (c : ChannelNo) (s : State) : Answer := respond (hdtDue c) (endOpenHit c false) s

/-- MAX_DURATION_EXPIRY (R33). -/
def execMaxDurationExpiry (c : ChannelNo) (s : State) : Answer := respond (maxDue c) (endOpenHit c true) s

/-- The lockout timer of a channel has run out (R36). -/
def lockoutDue (c : ChannelNo) (s : State) : Bool :=
  let ch := s.channel c
  decide (ch.detector = .lockout) && expired ch.lockout

/-- LOCKOUT_EXPIRY (R36). -/
def execLockoutExpiry (c : ChannelNo) (s : State) : Answer :=
  respond (lockoutDue c) (State.onChannel c fun ch => { ch with lockout := none }.armed) s

/-- The settle timer of a SETTLING channel has run out (R23). -/
def settleDue (c : ChannelNo) (s : State) : Bool :=
  let ch := s.channel c
  decide (ch.state = .settling) && expired ch.settle

/-- SETTLE_EXPIRY (R23). -/
def execSettleExpiry (c : ChannelNo) (microamps : Nat) (s : State) : Answer := respond (settleDue c) (settleChannel c microamps) s

/-- A channel's overload monitor is armed: LIVE or PULSING (R24). -/
def monitored (c : ChannelNo) (s : State) : Bool := hearing s c

/-- BIAS_OVERLOAD (R24). -/
def execBiasOverload (c : ChannelNo) (s : State) : Answer := respond (monitored c) (overload c) s

/-- The clock has reached the end of a channel's route to the tester (R42). -/
def routeDue (c : ChannelNo) (s : State) : Bool :=
  match (s.channel c).route with
  | .correlator => false
  | .tester p e => reached s.timer.clock p e

/-- ROUTE_END (R42). -/
def execRouteEnd (c : ChannelNo) (s : State) : Answer := respond (routeDue c) (clearRoute c) s

/-- The event of a serial has reached its deadline (R52). -/
def eventDue (serial : Nat) (s : State) : Bool :=
  match findEvent s serial with
  | none => false
  | some e => deadlineDue s e

/-- The event of a serial meets its deadline (R52). -/
def takeDeadline (serial : Nat) (s : State) : State :=
  match findEvent s serial with
  | none => s
  | some e => meetDeadline e s

/-- EVENT_DEADLINE (R52). -/
def execEventDeadline (serial : Nat) (s : State) : Answer := respond (eventDue serial) (takeDeadline serial) s

end Sys2Proof.Machine
end

