-- ==== Sys2Proof/Machine/OrderCommands.lean ====
section
/-! DEFINITION. The meanings of the orders of the mould manager and the evidence table, and of an order of unknown kind (R100, R102,
R110, R118, R159), and of the mould manager's reads and timer (R111 to R115). -/

namespace Sys2Proof.Machine

open Sys2Proof

/-! ## Orders -/

/-- MOUNT (R110). -/
def execMount (notify : Bool) (tag : Half) (offset : Nat) (fresh : Bool) (s : State) : Answer :=
  respond always (runOrder ⟨1, notify, tag⟩ fun o => takeMount o offset fresh) s

/-- DISMOUNT (R118). -/
def execDismount (notify : Bool) (tag : Half) (s : State) : Answer := respond always (runOrder ⟨2, notify, tag⟩ takeDismount) s

/-- CLEAR_ZONE is refused, by R100's table. -/
def clearRefusal (zone : Nat) (s : State) : Option OrderResult :=
  match s.mould.state with
  | .watching | .degraded | .suspended =>
    if zone ≠ 255 ∧ (zonesOf s).length ≤ zone then some (.badArgument .zone) else none
  | .empty | .mounting | .dismounting => some .noMould

/-- A taken CLEAR_ZONE: OK goes back, and then a mirror is asked for (R100). -/
def takeClear (zone : Nat) (o : OrderRef) (s : State) : State :=
  match clearRefusal zone s with
  | some r => giveResult o r s
  | none => requestMirror (giveResult o .ok (clearZones zone s))

/-- CLEAR_ZONE (R100). -/
def execClearZone (notify : Bool) (tag : Half) (zone : Nat) (s : State) : Answer :=
  respond always (runOrder ⟨4, notify, tag⟩ (takeClear zone)) s

/-- A taken RELEASE_STOP (R102). -/
def takeRelease (o : OrderRef) (s : State) : State := giveResult o .ok (releaseLatch s)

/-- RELEASE_STOP (R102). -/
def execReleaseStop (notify : Bool) (tag : Half) (s : State) : Answer := respond always (runOrder ⟨5, notify, tag⟩ takeRelease) s

/-- A kind that is none of the five orders (R159). -/
def unknownKind (kind : Nat) : Bool := !within 1 5 kind

/-- BAD_KIND (R159). -/
def execBadKind (notify : Bool) (tag : Half) (kind : Nat) (s : State) : Answer :=
  respond (fun _ => unknownKind kind) (runOrder ⟨kind, notify, tag⟩ fun o => giveResult o .badKind) s

/-! ## Reads of a mould record (R111 to R114) -/

/-- A record read of a mount that is over ends (log entry 17). -/
def endStray : State → State := State.onMould fun m => { m with strayRead := false }

/-- A record read is answered with bytes: the mount's own read of this kind, or one left over (R111, R112, R114). -/
def takeRead (kind : MountRead) (f : State → State) (s : State) : State := if s.mould.read = kind then f s else endStray s

/-- The length of a mount's read (Table 57): the description's and the context's follow from the fixed part. -/
def readLength (kind : MountRead) (fixed : Option FixedPart) : Nat :=
  match kind, fixed with
  | .fixed, _ => 8
  | .description, some f => descriptionBytes f
  | .context, some f => contextBytes f.pathCount f.zoneCount
  | _, _ => 0

/-- The bytes answer a read that is on the bus: the mount's own of this kind, whole, or one left over. -/
def readAnswered (kind : MountRead) (bytes : List Byte) (s : State) : Bool :=
  if s.mould.read = kind then decide (bytes.length = readLength kind s.mould.fixed) else s.mould.strayRead

/-- MOUNT_FIXED_READ_DONE (R111). -/
def execMountFixedReadDone (bytes : List Byte) (s : State) : Answer :=
  respond (readAnswered .fixed bytes) (takeRead .fixed (takeFixed (parseFixed bytes))) s

/-- MOUNT_DESCRIPTION_READ_DONE (R112). -/
def execMountDescriptionReadDone (bytes : List Byte) (s : State) : Answer :=
  respond (readAnswered .description bytes)
    (takeRead .description fun s =>
      match s.mould.fixed with
      | none => s
      | some f => takeDescription (parseDescription f bytes) s) s

/-- MOUNT_CONTEXT_READ_DONE (R114). -/
def execMountContextReadDone (bytes : List Byte) (s : State) : Answer :=
  respond (readAnswered .context bytes)
    (takeRead .context fun s =>
      match s.mould.fixed with
      | none => s
      | some f => takeContext (parseContext f.pathCount f.zoneCount bytes) s) s

/-! ## Mount timer (R115) -/

/-- The mount timer has run out in CLAMP_WAIT (R115). -/
def mountTimerDue (s : State) : Bool :=
  decide (s.mould.state = .mounting) && decide (s.mould.phase = .clampWait) && expired s.mould.timer

/-- MOUNT_TIMER_EXPIRY (R115). -/
def execMountTimerExpiry (s : State) : Answer := respond mountTimerDue mountTimeout s

end Sys2Proof.Machine
end

