-- ==== Sys2Proof/Machine/TestCommands.lean ====
section
/-! DEFINITION. The meanings of the coupling tester's commands (R132, R137, R139) and of the lamp's blink (R99). -/

namespace Sys2Proof.Machine

open Sys2Proof

/-! ## TEST_SENSOR (R132) -/

/-- The arguments of a TEST_SENSOR. -/
structure TestArgs where
  source : Nat
  amplitude : Nat
  level : Nat
  attempts : Nat
  delay : Nat
  apply : Bool
  deriving DecidableEq, Repr

/-- The refusal of a TEST_SENSOR: the first line of Table 40 that holds (R132). -/
def testRefusal (a : TestArgs) (s : State) : Option OrderResult :=
  if !watching s then some .noMould
  else if !(s.mould.used.any fun c => decide (c.val = a.source)) then some (.badArgument .channel)
  else if 100 < a.amplitude then some (.badArgument .amplitude)
  else if 7 < a.level then some (.badArgument .level)
  else if a.attempts = 0 ∨ 15 < a.attempts then some (.badArgument .attempts)
  else if 255 < a.delay then some (.badArgument .delay)
  else if !((pathsOf s).any fun p => p.touches (channelOf a.source)) then some (.badArgument .noPartner)
  else if testCapacity ≤ s.tester.length then some (.badArgument .queueFull)
  else none

/-- The test record of an accepted TEST_SENSOR (Table 39). -/
def newTest (o : OrderRef) (a : TestArgs) (s : State) : Test :=
  { order := o, source := channelOf a.source, required := a.amplitude, level := a.level, allowed := a.attempts, used := 0
    delay := a.delay, apply := a.apply, state := .waiting, partners := partnersOf (pathsOf s) (channelOf a.source), rest := none
    lastLevel := a.level, attempt := none }

/-- A test joins the back of the queue; joining an empty queue, it is judged at once (R134, R135). -/
def joinQueue (t : Test) (s : State) : State :=
  let u := { s with tester := s.tester ++ [t] }
  if s.tester.isEmpty then judgeQueue u else u

/-- A taken TEST_SENSOR: NOT_SUPPORTED on the 0840, refused by Table 40, or accepted (R132, R159). -/
def takeTest (a : TestArgs) (o : OrderRef) (s : State) : State :=
  if !pulserFitted s.variant then giveResult o .notSupported s
  else
    match testRefusal a s with
    | some r => giveResult o r s
    | none => joinQueue (newTest o a s) s

/-- TEST_SENSOR (R132). -/
def execTestSensor (notify : Bool) (tag : Half) (source amplitude level attempts delay : Nat) (apply : Bool) (s : State) : Answer :=
  respond always (runOrder ⟨3, notify, tag⟩ (takeTest ⟨source, amplitude, level, attempts, delay, apply⟩)) s

/-! ## Attempts (R137, R139) -/

/-- The clock has reached the end tick of the head test's attempt (R137). -/
def attemptDue (s : State) : Bool :=
  match s.tester with
  | [] => false
  | t :: _ =>
    match t.attempt with
    | none => false
    | some a => decide (t.state = .listening) && reached s.timer.clock a.pulseTick a.endTick

/-- The attempt's end tick (R137). -/
def takeEndTick (s : State) : State :=
  match s.tester with
  | [] => s
  | t :: _ => endAttemptTick t s

/-- ATTEMPT_END_TICK (R137). -/
def execAttemptEndTick (s : State) : Answer := respond attemptDue takeEndTick s

/-- The rest timer of a RESTING head has run out (R139). -/
def restDue (s : State) : Bool :=
  match s.tester with
  | [] => false
  | t :: _ => decide (t.state = .resting) && expired t.rest

/-- The rest is over: WAITING, judged at once (R139). -/
def takeRest (s : State) : State := judgeQueue (s.onTest fun t => { t with state := .waiting, rest := none })

/-- REST_EXPIRY (R139). -/
def execRestExpiry (s : State) : Answer := respond restDue takeRest s

/-! ## Lamp (R99) -/

/-- The blink timer has run out. -/
def blinkDue (s : State) : Bool :=
  match s.evid.blink with
  | none => false
  | some b => decide (b.left = 0)

/-- The other half of a blink (R99). -/
def Blink.toggled (b : Blink) : Blink := { on := !b.on, left := blinkTicks }

/-- LAMP_BLINK_TOGGLE (R99). -/
def execLampBlinkToggle (s : State) : Answer :=
  respond blinkDue (State.onEvid fun e => { e with blink := e.blink.map Blink.toggled }) s

end Sys2Proof.Machine
end

