-- ==== Sys2Proof/Machine/TimerCommands.lean ====
section
/-! DEFINITION. The meanings of the cycle timer's commands (R1, R9, R15). -/

namespace Sys2Proof.Machine

open Sys2Proof

/-- WINDOW_OPEN (R15). -/
def execWindowOpen (w : WindowNo) (s : State) : Answer :=
  respond (fun s => opens s.timer s.timer.windows[w]) (State.onTimer stepWindows) s

/-- WINDOW_CLOSE (R15). -/
def execWindowClose (w : WindowNo) (s : State) : Answer :=
  respond (fun s => closes s.timer s.timer.windows[w]) (State.onTimer stepWindows) s

/-- A window at the wrap of the clock (R15). -/
def wrappedWindow (w : Window) : Window :=
  match w.state with
  | .waiting | .pending | .open => { w with state := .spent }
  | .disabled | .spent => w

/-- The clock wraps (R1, R15). -/
def wrapClock (t : CycleTimer) : CycleTimer := { t with clock := 0, wrapped := true, windows := mapWindows wrappedWindow t.windows }

/-- CLOCK_WRAP (R1). -/
def execClockWrap (s : State) : Answer := respond (fun s => decide (s.timer.clock = BitVec.allOnes 32)) (State.onTimer wrapClock) s

/-- The clock of a RUNNING press has reached the stall tick (R9). -/
def stallDue (s : State) : Bool := decide (s.timer.press = .running) && decide (stallTick s.timer ≤ s.timer.clock.toNat)

/-- A stall: STOPPED, the stall mark and the STALL condition; the head test may start (R9, R135). -/
def takeStall (s : State) : State :=
  let s := s.onTimer fun t => { t with press := .stopped, stallMark := true }
  judgeQueue (handCondition .stall none (BitVec.ofNat 32 (stallTick s.timer)) s)

/-- STALL (R9). -/
def execStall (s : State) : Answer := respond stallDue takeStall s

end Sys2Proof.Machine
end

