-- ==== Sys2Proof/Machine/Tick.lean ====
section
/-! DEFINITION. One tick of 100 ns, which passes when no command waits (log entry 1): the clock and every timer advance, and the
part's own events that have fallen due join the queue, in an order left free (log entry 3). -/

namespace Sys2Proof.Machine

open Sys2Proof

/-! ## Timers -/

/-- The board's timers one tick later; they run during a reset too (R179). -/
def Board.aged (b : Board) : Board := { b with supplyDelay := tickTimer b.supplyDelay, qualify := tickTimer b.qualify }

/-- A line's filter timer one tick later (R176). -/
def LineInput.aged (l : LineInput) : LineInput := { l with timer := tickTimer l.timer }

/-- An open hit's timers one tick later (R32, R33). -/
def OpenHit.aged (h : OpenHit) : OpenHit := { h with hdtLeft := h.hdtLeft - 1, maxLeft := h.maxLeft - 1 }

/-- A pulse one tick later: it ends with its 1 µs (R180). -/
def agedDrive : Option Drive → Option Drive
  | some d => if d.left ≤ 1 then none else some { d with left := d.left - 1 }
  | none => none

/-- A channel one tick later. -/
def Channel.aged (ch : Channel) : Channel :=
  { ch with
    settle := tickTimer ch.settle, lockout := tickTimer ch.lockout, hit := ch.hit.map OpenHit.aged, armedNow := false
    drive := agedDrive ch.drive }

/-- A function applied to every channel. -/
def mapChannels (f : Channel → Channel) (v : Vector Channel 16) : Vector Channel 16 :=
  #v[f v[0], f v[1], f v[2], f v[3], f v[4], f v[5], f v[6], f v[7], f v[8], f v[9], f v[10], f v[11], f v[12], f v[13], f v[14], f v[15]]

/-- A blink one tick later (R99). -/
def Blink.aged (b : Blink) : Blink := { b with left := b.left - 1 }

/-- The clock will wrap at this tick (R1). -/
def wrapping (s : State) : Bool := decide (s.timer.clock = BitVec.allOnes 32)

/-- The clock one tick later; at its last value it waits for the CLOCK_WRAP that the tick brings first. -/
def CycleTimer.aged (t : CycleTimer) : CycleTimer := { t with clock := if t.clock = BitVec.allOnes 32 then t.clock else t.clock + 1 }

/-- Every timer of the blocks one tick later. -/
def ageBlocks (s : State) : State :=
  { s with
    lines := s.lines.all LineInput.aged
    timer := s.timer.aged
    front := { s.front with channels := mapChannels Channel.aged s.front.channels }
    evid := { s.evid with blink := s.evid.blink.map Blink.aged }
    mould := { s.mould with timer := tickTimer s.mould.timer }
    tester := s.tester.map fun t => { t with rest := tickTimer t.rest } }

/-- Every timer one tick later; while the part is held the clock stays at 0 and only the board's timers run (R179). -/
def ageState (s : State) : State :=
  let s := s.onBoard Board.aged
  if held s then s else ageBlocks s

/-! ## Events that have fallen due -/

/-- A command when its condition holds. -/
def dueIf (b : Bool) (i : Instr) : List Instr := if b then [i] else []

/-- The board's due events. -/
def dueBoard (s : State) : List Instr :=
  dueIf (expired s.board.supplyDelay) .supplyReturnDelayExpiry ++ dueIf (expired s.board.qualify) .resetTaken

/-- The due events of a channel; a settle expiry samples a bias current left free (log entry 10). -/
def dueChannel (s : State) (c : ChannelNo) : List Instr :=
  dueIf (hdtDue c s) (.hdtExpiry c) ++ dueIf (maxDue c s) (.maxDurationExpiry c) ++ dueIf (lockoutDue c s) (.lockoutExpiry c)
    ++ dueIf (settleDue c s) (.settleExpiry c (Config.biasSample s.freeNext c.val)) ++ dueIf (routeDue c s) (.routeEnd c)

/-- The due events of a window. -/
def dueWindow (s : State) (w : WindowNo) : List Instr :=
  dueIf (opens s.timer s.timer.windows[w]) (.windowOpen w) ++ dueIf (closes s.timer s.timer.windows[w]) (.windowClose w)

/-- The due deadlines. -/
def dueDeadlines (s : State) : List Instr :=
  (s.corr.events.filter (deadlineDue s)).map fun e => .eventDeadline e.serial

/-- The due events of the blocks. -/
def dueBlocks (s : State) : List Instr :=
  (allLines.map fun l => dueIf (filterDue l s) (.lineFilterExpiry l)).flatten
    ++ (allWindows.map (dueWindow s)).flatten ++ dueIf (stallDue s) .stall ++ (allChannels.map (dueChannel s)).flatten
    ++ dueDeadlines s ++ dueIf (mountTimerDue s) .mountTimerExpiry ++ dueIf (attemptDue s) .attemptEndTick
    ++ dueIf (restDue s) .restExpiry ++ dueIf (blinkDue s) .lampBlinkToggle ++ dueIf (headerReadDue s) .enableHeaderReadStart

/-- The events due after a tick. -/
def dueEvents (s : State) : List Instr := dueBoard s ++ if held s then [] else dueBlocks s

/-! ## Their order -/

/-- Each event with the free key of its place (log entry 3). -/
def keyed (seed : Nat) : Nat → List Instr → List (Nat × Instr)
  | _, [] => []
  | n, i :: is => (Config.tieKey seed n, i) :: keyed seed (n + 1) is

/-- An event inserted by its key. -/
def insertKey (x : Nat × Instr) : List (Nat × Instr) → List (Nat × Instr)
  | [] => [x]
  | y :: ys => if x.1 ≤ y.1 then x :: y :: ys else y :: insertKey x ys

/-- The due events in the order of their free keys. -/
def ordered (seed : Nat) (is : List Instr) : List Instr := ((keyed seed 0 is).foldr insertKey []).map (·.2)

/-- The state as the due events see it: at a wrap the clock is 0, since CLOCK_WRAP is taken first. -/
def afterWrap (s : State) : State := if wrapping s then s.onTimer wrapClock else s

/-- One tick of 100 ns. -/
def tick (s : State) : State :=
  let wraps := wrapping s && !held s
  let t := ageState s
  let due := ordered t.freeNext (dueEvents (if wraps then afterWrap t else t))
  { t with freeNext := if due.isEmpty then t.freeNext else t.freeNext + 1, pending := dueIf wraps .clockWrap ++ due }

end Sys2Proof.Machine
end

