-- ==== Sys2Proof/Machine/Dispatch.lean ====
section
/-! DEFINITION. The meaning of every command: one arm for each constructor of `Instr`, each one call of its meaning. -/

namespace Sys2Proof.Machine

open Sys2Proof

/-- A command's effect on everything but the queue of waiting commands. -/
def exec (i : Instr) (s : State) : Host.Outcome State Fault Refusal :=
  match i with
  | .supplyOutOfRange => Sys2Proof.Machine.execSupplyOutOfRange s
  | .suppliesReturnWithinRange => Sys2Proof.Machine.execSuppliesReturnWithinRange s
  | .supplyReturnDelayExpiry => Sys2Proof.Machine.execSupplyReturnDelayExpiry s
  | .rstLow pin => Sys2Proof.Machine.execRstLow pin s
  | .resetTaken => Sys2Proof.Machine.execResetTaken s
  | .resetEnd pin => Sys2Proof.Machine.execResetEnd pin s
  | .functionLevelReset => Sys2Proof.Machine.execFunctionLevelReset s
  | .lineRawChange line millivolts => Sys2Proof.Machine.execLineRawChange line millivolts s
  | .lineFilterExpiry line => Sys2Proof.Machine.execLineFilterExpiry line s
  | .windowOpen w => Sys2Proof.Machine.execWindowOpen w s
  | .windowClose w => Sys2Proof.Machine.execWindowClose w s
  | .clockWrap => Sys2Proof.Machine.execClockWrap s
  | .stall => Sys2Proof.Machine.execStall s
  | .hitStart c amplitude => Sys2Proof.Machine.execHitStart c amplitude s
  | .hitCrossing c amplitude => Sys2Proof.Machine.execHitCrossing c amplitude s
  | .hdtExpiry c => Sys2Proof.Machine.execHdtExpiry c s
  | .maxDurationExpiry c => Sys2Proof.Machine.execMaxDurationExpiry c s
  | .lockoutExpiry c => Sys2Proof.Machine.execLockoutExpiry c s
  | .settleExpiry c microamps => Sys2Proof.Machine.execSettleExpiry c microamps s
  | .biasOverload c => Sys2Proof.Machine.execBiasOverload c s
  | .routeEnd c => Sys2Proof.Machine.execRouteEnd c s
  | .eventDeadline serial => Sys2Proof.Machine.execEventDeadline serial s
  | .mountTimerExpiry => Sys2Proof.Machine.execMountTimerExpiry s
  | .attemptEndTick => Sys2Proof.Machine.execAttemptEndTick s
  | .restExpiry => Sys2Proof.Machine.execRestExpiry s
  | .lampBlinkToggle => Sys2Proof.Machine.execLampBlinkToggle s
  | .registerWrite reg value => Sys2Proof.Machine.execRegisterWrite reg value s
  | .enable => Sys2Proof.Machine.execEnable s
  | .enableHeaderReadStart => Sys2Proof.Machine.execEnableHeaderReadStart s
  | .enableHeaderReadDone bytes => Sys2Proof.Machine.execEnableHeaderReadDone bytes s
  | .capabilityWriteDone => Sys2Proof.Machine.execCapabilityWriteDone s
  | .disable => Sys2Proof.Machine.execDisable s
  | .look => Sys2Proof.Machine.execLook s
  | .scanHeaderReadDone bytes => Sys2Proof.Machine.execScanHeaderReadDone bytes s
  | .programmeReadDone bytes => Sys2Proof.Machine.execProgrammeReadDone bytes s
  | .echoWriteDone => Sys2Proof.Machine.execEchoWriteDone s
  | .boardReadDone bytes => Sys2Proof.Machine.execBoardReadDone bytes s
  | .cellTakeCasDone found => Sys2Proof.Machine.execCellTakeCasDone found s
  | .mount notify tag offset fresh => Sys2Proof.Machine.execMount notify tag offset fresh s
  | .dismount notify tag => Sys2Proof.Machine.execDismount notify tag s
  | .testSensor notify tag source amplitude level attempts delay apply => Sys2Proof.Machine.execTestSensor notify tag source amplitude level attempts delay apply s
  | .clearZone notify tag zone => Sys2Proof.Machine.execClearZone notify tag zone s
  | .releaseStop notify tag => Sys2Proof.Machine.execReleaseStop notify tag s
  | .badKind notify tag kind => Sys2Proof.Machine.execBadKind notify tag kind s
  | .mountFixedReadDone bytes => Sys2Proof.Machine.execMountFixedReadDone bytes s
  | .mountDescriptionReadDone bytes => Sys2Proof.Machine.execMountDescriptionReadDone bytes s
  | .mountContextReadDone bytes => Sys2Proof.Machine.execMountContextReadDone bytes s
  | .jobWriteAccepted => Sys2Proof.Machine.execJobWriteAccepted s
  | .resultStateCasDone found => Sys2Proof.Machine.execResultStateCasDone found s
  | .busError unit => Sys2Proof.Machine.execBusError unit s

end Sys2Proof.Machine
end

