-- ==== Sys2Proof/Safety.lean ====
section
/-! DEFINITION. The laws of the part that every step keeps, in the terms the statements use, and what a safe state is. -/

namespace Sys2Proof.Machine

open Sys2Proof

/-- The law of R51 for an open event list: at most 32 events, and no event holds two members of one channel. -/
abbrev EventsOk (es : List Event) : Prop := es.length ≤ eventCapacity ∧ ∀ e ∈ es, (e.members.map (·.chan)).Nodup

/-- Every member is a channel of the variant, and only a channel of the variant has a base threshold (R21, R27, R51). -/
abbrev FittedOk (s : State) : Prop :=
  (∀ e ∈ s.corr.events, ∀ m ∈ e.members, m.chan.val < channelCount s.variant)
    ∧ ∀ c : ChannelNo, (s.channel c).base ≠ none → c.val < channelCount s.variant

/-- The law of R96 for a zone: the score lies between 0 and 65535 and the run between 0 and 255. -/
abbrev ZoneOk (z : ZoneEntry) : Prop := z.score ≤ 65535 ∧ z.run ≤ 255

/-- The law of R96 for the zone table. -/
abbrev ScoresOk (s : State) : Prop := ∀ z ∈ zonesOf s, ZoneOk z

/-- The bound of R162: the write-job queue holds at most 16 jobs. -/
abbrev QueueOk (s : State) : Prop := s.xu.queue.length ≤ queueCapacity

/-- The bound of R131: the test queue holds at most 8 tests. -/
abbrev TestsOk (s : State) : Prop := s.tester.length ≤ testCapacity

/-- The law of R144: a PULSING channel is the source of the LISTENING test at the head, on a STOPPED press. -/
abbrev PulseOk (s : State) : Prop :=
  ∀ c : ChannelNo, (s.channel c).state = .pulsing →
    s.timer.press = .stopped ∧ ∃ t ∈ s.tester.head?, t.source = c ∧ t.state = .listening ∧ t.attempt.isSome = true

/-- The area state, EN and the enable go together, and ATTN# is asserted only while ACTIVE (R149 to R152, R166). -/
abbrev AreaOk (x : Exchange) : Prop :=
  (x.attn = true → x.area = .active) ∧ (x.area = .active → x.en = true ∧ x.enabling = .none) ∧ (x.enabling ≠ .none → x.en = true)

/-- Zone `i` of the table is CRACKED. -/
abbrev CrackedAt (s : State) (i : Nat) : Prop := (zonesOf s)[i]?.map (·.verdict) = some .cracked

/-- A safe state: the bytes put into memory are in canonical form, and the laws of R51, R96, R131, R144 and R162 hold. -/
abbrev Safe (s : State) : Prop :=
  areaWf s.area = true ∧ EventsOk s.corr.events ∧ FittedOk s ∧ ScoresOk s ∧ QueueOk s ∧ TestsOk s ∧ PulseOk s ∧ AreaOk s.xu

/-! ## Premises and conclusions that several statements share -/

/-- Every block stands at its values after reset (R7, R43, R57, R105, R129, R147, R175). -/
abbrev AtReset (s : State) : Prop :=
  s.timer = resetTimer ∧ s.front = resetFront ∧ s.corr = resetCorr ∧ s.evid = resetEvid ∧ s.mould = resetMould ∧ s.tester = []
    ∧ s.xu = resetXu

/-- No bias, no STOPREQ, no LAMP and no ATTN# (R179). -/
abbrev PinsOff (s : State) : Prop :=
  (∀ c : ChannelNo, biasOn s c = false) ∧ stopreq s = false ∧ lampOn s = false ∧ attnAsserted s = false

/-- The filter timer of a line has run out with the raw level still different (R176). -/
abbrev EdgeDue (s : State) (l : Line) : Prop := (s.lines.at l).timer = some 0 ∧ (s.lines.at l).raw ≠ (s.lines.at l).filtered

/-- The state with the filtered level of a line at its raw level and the filter timer stopped (R176). -/
abbrev filteredTo (l : Line) (s : State) : State :=
  s.putLine l { s.lines.at l with filtered := (s.lines.at l).raw, timer := none }

/-- Everything but the lines, and what no block but the exchange unit holds, stands: pins, variant, memory and waiting commands. -/
abbrev OutsideKept (s t : State) : Prop :=
  t.board = s.board ∧ t.variant = s.variant ∧ t.area = s.area ∧ t.pending = s.pending

/-- A window after the changes of the timer's clock value (R15). -/
abbrev windowMoved (t : CycleTimer) (w : Window) : Window :=
  if w.state = .pending ∧ clockAt t (openTick t w.defn) = true then { w with state := .open }
  else if w.state = .open ∧ clockAt t (closeTick t w.defn) = true then { w with state := .spent }
  else w

/-- The windows take the changes of this clock value, all at once, and nothing else changes (R15). -/
abbrev WindowsMoved (s t : State) : Prop :=
  (∀ v : WindowNo, t.timer.windows[v] = windowMoved s.timer s.timer.windows[v])
    ∧ { t with timer := { t.timer with windows := s.timer.windows } } = s

/-- A command of the part's own has fallen due: its timer has run out, or the clock has reached its tick. -/
def FallsDue (s : State) : Instr → Prop
  | .supplyReturnDelayExpiry => s.board.supplyDelay = some 0
  | .resetTaken => s.board.qualify = some 0
  | .lineFilterExpiry l => EdgeDue s l
  | .windowOpen w => s.timer.windows[w].state = .pending ∧ clockAt s.timer (openTick s.timer s.timer.windows[w].defn) = true
  | .windowClose w => s.timer.windows[w].state = .open ∧ clockAt s.timer (closeTick s.timer s.timer.windows[w].defn) = true
  | .stall => s.timer.press = .running ∧ s.timer.installed.stallLimit * 10000 ≤ s.timer.clock.toNat
  | .hdtExpiry c => (s.channel c).detector = .inHit ∧ ∃ h, (s.channel c).hit = some h ∧ h.hdtLeft = 0
  | .maxDurationExpiry c => (s.channel c).detector = .inHit ∧ ∃ h, (s.channel c).hit = some h ∧ h.maxLeft = 0
  | .lockoutExpiry c => (s.channel c).detector = .lockout ∧ (s.channel c).lockout = some 0
  | .settleExpiry c microamps =>
    (s.channel c).state = .settling ∧ (s.channel c).settle = some 0 ∧ microamps = Config.biasSample s.freeNext c.val
  | .routeEnd c => ∃ p e : Word, (s.channel c).route = .tester p e ∧ diff32 e p ≤ diff32 s.timer.clock p
  | .eventDeadline n =>
    ∃ e ∈ s.corr.events, e.serial = n ∧ e.closing = false ∧ diff32 e.deadline e.firstArrival ≤ diff32 s.timer.clock e.firstArrival
  | .mountTimerExpiry => s.mould.state = .mounting ∧ s.mould.phase = .clampWait ∧ s.mould.timer = some 0
  | .attemptEndTick =>
    ∃ x a, s.tester.head? = some x ∧ x.state = .listening ∧ x.attempt = some a
      ∧ diff32 a.endTick a.pulseTick ≤ diff32 s.timer.clock a.pulseTick
  | .restExpiry => ∃ x, s.tester.head? = some x ∧ x.state = .resting ∧ x.rest = some 0
  | .lampBlinkToggle => ∃ b, s.evid.blink = some b ∧ b.left = 0
  | .enableHeaderReadStart => s.xu.enabling = .waiting ∧ s.xu.issue = none ∧ s.xu.strayEnable = .none
  | .supplyOutOfRange | .suppliesReturnWithinRange | .rstLow _ | .resetEnd _ | .functionLevelReset | .lineRawChange _ _ | .clockWrap
  | .hitStart _ _ | .hitCrossing _ _ | .biasOverload _ | .registerWrite _ _ | .enable | .enableHeaderReadDone _ | .capabilityWriteDone
  | .disable | .look | .scanHeaderReadDone _ | .programmeReadDone _ | .echoWriteDone | .boardReadDone _ | .cellTakeCasDone _
  | .mount _ _ _ _ | .dismount _ _ | .testSensor _ _ _ _ _ _ _ _ | .clearZone _ _ _ | .releaseStop _ _ | .badKind _ _ _
  | .mountFixedReadDone _ | .mountDescriptionReadDone _ | .mountContextReadDone _ | .jobWriteAccepted | .resultStateCasDone _
  | .busError _ => False

/-- A scan that goes on has read cell `k`, whose order comes next (R158). -/
abbrev OrderRead (s : State) (k : CellNo) : Prop := held s = false ∧ s.xu.scan.phase = .cellRead k ∧ s.xu.scan.abandoned = false

/-- The order reference of the order read from cell `k`. -/
abbrev orderOf (s : State) (k : CellNo) (tag : Half) : OrderRef := { cell := k, take := s.xu.takeNumber, tag := tag }

/-- The result job of the order read from cell `k`, as it is created first after `s` (R160, R162). -/
abbrev resultJob (s : State) (k : CellNo) (notify : Bool) (r : OrderResult) : Job :=
  { base := baseOf s, seed := s.freeNext, body := .result k s.xu.takeNumber notify r }

/-- The order read from cell `k` is in hand and answered at once with `r`, and nothing outside the exchange unit changes (R159, R160). -/
abbrev Answered (s : State) (k : CellNo) (head : OrderHead) (r : OrderResult) (t : State) : Prop :=
  t.xu.cells[k] = .inHand s.xu.takeNumber (some head) ∧ t.xu.queue = s.xu.queue ++ [resultJob s k head.notify r]
    ∧ { t with xu := s.xu, freeNext := s.freeNext } = s

/-- The bytes of a write stand at its addresses, and every other byte reads as before (R152). -/
abbrev Lands (w : BusWrite) (s t : State) : Prop :=
  (∀ i : Nat, ∀ b ∈ w.bytes[i]?, readArea t.area (addrAt w.addr i).toNat = some b)
    ∧ ∀ a : Nat, (∀ i < w.bytes.length, a ≠ (addrAt w.addr i).toNat) → readArea t.area a = readArea s.area a

/-- A job created now with this body, the `n`th from here on (R162). -/
abbrev jobOf (s : State) (n : Nat) (b : JobBody) : Job := { base := baseOf s, seed := s.freeNext + n, body := b }

/-- An offer with this zone verdict, none for UNZONED, is selected by the list selection (R174). Before any header is read its list
size counts as above 0, the model's choice (log entry 39). -/
abbrev Selected (x : Exchange) (v : Option Verdict) : Prop :=
  (0 < x.geometry.listSize ∨ x.nextLocated = none)
    ∧ ((x.listSelection = 1 ∧ ∃ y ∈ v, x.listLevel ≤ y.level) ∨ (x.listSelection = 2 ∧ v ≠ none) ∨ x.listSelection = 3)

/-- What becomes of a located-event offer: discarded where it is not selected; listed, as the record of the next sequence, where there
is room; and counted as not listed otherwise (R174). -/
abbrev Offered (r : LocatedOffer) (s t : State) : Prop :=
  (¬ Selected s.xu (r.zone.map (·.2.2)) → t.xu = s.xu)
    ∧ (Selected s.xu (r.zone.map (·.2.2)) → active s = true → locatedRoom s = true → queueRoom s = true →
        t.xu.queue = s.xu.queue ++
          [jobOf s 0 (.located (listSlot s.xu.geometry (s.xu.nextLocated.getD 0)) (s.xu.nextLocated.getD 0) r)]
        ∧ t.xu.nextLocated = s.xu.nextLocated.map (· + 1)
        ∧ { t.xu with queue := s.xu.queue, issue := s.xu.issue, nextLocated := s.xu.nextLocated } = s.xu)
    ∧ (Selected s.xu (r.zone.map (·.2.2)) → active s = false ∨ locatedRoom s = false ∨ queueRoom s = false →
        t.xu = { s.xu with accruals := { s.xu.accruals with notListed := min 65535 (s.xu.accruals.notListed + 1) } })

/-- The verdict changes between two zone tables, in index order (R95). -/
abbrev verdictChanges (s t : State) : List VerdictChange :=
  (List.range (zonesOf s).length).filterMap fun i =>
    match (zonesOf s)[i]?, (zonesOf t)[i]? with
    | some a, some b => if a.verdict = b.verdict then none else some { zone := i, label := a.label, old := a.verdict, new := b.verdict }
    | _, _ => none

/-- The record of the cycle that was open in `s`, closed with the zones and the stop latch as `t` has them (R168, Table 58). -/
abbrev closedRecord (s t : State) : CycleRecord :=
  { first := s.timer.number, last := s.timer.number, coalesced := 1
    kind := if s.timer.openedByReset = true then .preamble else if s.timer.stallMark = true then .long else .normal
    length := if s.timer.wrapped = true then BitVec.allOnes 32 else s.timer.clock
    captures := s.timer.captures, extras := s.timer.extras, mouldState := s.mould.state, identity := s.mould.identity.getD 0
    flags := s.xu.accruals.flags ||| (if ∃ c ∈ verdictChanges s t, c.old.level < c.new.level then flagBit 0 else 0)
      ||| (if s.evid.stopLatch = false ∧ t.evid.stopLatch = true then flagBit 1 else 0)
      ||| (if s.timer.stallMark = true then flagBit 5 else 0) ||| (if s.timer.wrapped = true then flagBit 9 else 0)
    tallies := { s.corr.tallies with
      empty := min 65535 s.corr.tallies.empty, continuous := min 65535 s.corr.tallies.continuous
      ungated := min 65535 s.corr.tallies.ungated, unlocated := min 65535 s.corr.tallies.unlocated
      unzoned := min 65535 s.corr.tallies.unzoned, located := min 65535 s.corr.tallies.located
      forced := min 65535 s.corr.tallies.forced, cut := min 65535 s.corr.tallies.cut }
    notListed := s.xu.accruals.notListed
    changes := (verdictChanges s t).take 8
    overflow := min 65535 ((verdictChanges s t).length - 8) }

/-- A carry record with a later record merged into it (R170, Table 59). -/
abbrev mergedRecord (c r : CycleRecord) : CycleRecord :=
  { r with
    first := c.first
    coalesced := min 4294967295 (c.coalesced + r.coalesced)
    flags := c.flags ||| r.flags
    tallies :=
      { delivered := min 4294967295 (c.tallies.delivered + r.tallies.delivered)
        rejected := min 4294967295 (c.tallies.rejected + r.tallies.rejected)
        orphan := min 4294967295 (c.tallies.orphan + r.tallies.orphan)
        empty := min 65535 (c.tallies.empty + r.tallies.empty), continuous := min 65535 (c.tallies.continuous + r.tallies.continuous)
        ungated := min 65535 (c.tallies.ungated + r.tallies.ungated), unlocated := min 65535 (c.tallies.unlocated + r.tallies.unlocated)
        unzoned := min 65535 (c.tallies.unzoned + r.tallies.unzoned), located := min 65535 (c.tallies.located + r.tallies.located)
        forced := min 65535 (c.tallies.forced + r.tallies.forced), cut := min 65535 (c.tallies.cut + r.tallies.cut) }
    notListed := min 65535 (c.notListed + r.notListed)
    changes := (c.changes ++ r.changes).take 8
    overflow := min 65535 (c.overflow + r.overflow + ((c.changes ++ r.changes).length - 8)) }

/-- A cycle record's job body, as the `n`th journal record created from `s` on (R167, R168). -/
abbrev cycleBody (s : State) (n : Nat) (r : CycleRecord) : JobBody :=
  let seq := s.xu.nextJournal.getD 0 + BitVec.ofNat 32 n
  .cycle (journalSlot s.xu.geometry seq) seq (noticed s.xu.noticeMask r.flags) r

/-- The journal and the queue have room for one more record after `n` created from `s` on (R167, R169). -/
abbrev RoomAfter (s : State) (n : Nat) : Prop :=
  ringRoom (s.xu.nextJournal.map (· + BitVec.ofNat 32 n)) s.xu.consumedJournal s.xu.geometry.journalSize = true
    ∧ s.xu.queue.length + n < 16

/-- The record of a close is placed: the jobs it creates, and the carry record it leaves (R169). -/
abbrev RecordPlaced (s : State) (r : CycleRecord) (jobs : List JobBody) (carry : Option CycleRecord) : Prop :=
  (active s = false → jobs = [] ∧ carry = s.xu.carry)
    ∧ (active s = true → s.xu.carry = none → RoomAfter s 0 → jobs = [cycleBody s 0 r] ∧ carry = none)
    ∧ (active s = true → s.xu.carry = none → ¬ RoomAfter s 0 → jobs = [] ∧ carry = some r)
    ∧ (∀ c : CycleRecord, active s = true → s.xu.carry = some c → ¬ RoomAfter s 0 → jobs = [] ∧ carry = some (mergedRecord c r))
    ∧ (∀ c : CycleRecord, active s = true → s.xu.carry = some c → RoomAfter s 0 → ¬ RoomAfter s 1 →
        jobs = [cycleBody s 0 c] ∧ carry = some r)
    ∧ (∀ c : CycleRecord, active s = true → s.xu.carry = some c → RoomAfter s 0 → RoomAfter s 1 →
        jobs = [cycleBody s 0 c, cycleBody s 1 r] ∧ carry = none)

/-- The mirror that a state shows, with a generation (R164). -/
abbrev mirrorOf (generation : Word) (t : State) : MirrorCopy :=
  { generation := generation, cycle := t.timer.number, identity := t.mould.identity.getD 0, mouldState := t.mould.state
    press := t.timer.press, channels := (allChannels.filter fun c => decide (c.val < channelCount t.variant)).map fun c => (t.channel c).state
    mouldVerdict := mouldVerdict t, cavities := cavityVerdicts t
    zones := (zonesOf t).map fun z =>
      { score := z.score, verdict := z.verdict, run := z.run, blind := zoneBlind t z, events := z.tallyEvents, label := z.label } }

/-- A checkpoint falls due at the close that would be taken now (R125). -/
abbrev CheckpointDue (s : State) : Prop :=
  watching s = true ∧ 0 < s.mould.checkpointInterval ∧ s.mould.checkpointInterval ≤ s.mould.checkpoint + 1

/-- A checkpoint is offered at the close that would be taken now: it falls due, or is pending (R126, Table 36). -/
abbrev CheckpointWanted (s : State) : Prop :=
  CheckpointDue s ∨ (s.mould.pendingSave = some .checkpoint ∧ s.mould.state ≠ .dismounting)

/-- Cell `k` is the first whose result waits (R163). -/
abbrev FirstWaiting (s : State) (k : CellNo) (take : Word) (head : Option OrderHead) (r : OrderResult) : Prop :=
  s.xu.cells[k] = .resultWaiting take head r
    ∧ ∀ j : CellNo, j < k → ∀ (w : Word) (h : Option OrderHead) (q : OrderResult), s.xu.cells[j] ≠ .resultWaiting w h q

/-- After the job in issue has left, with `js` behind it, the first waiting result has its job, and its entry is IN_HAND again (R163). -/
abbrev WaitingPlaced (s : State) (js : List Job) (t : State) : Prop :=
  ∀ (k : CellNo) (take : Word) (head : Option OrderHead) (r : OrderResult), FirstWaiting s k take head r → active s = true →
    js.length < 16 → s.mould.order = .none →
      t.xu.queue[js.length]? = some (jobOf s 0 (.result k take (notifyOf head) r)) ∧ t.xu.cells[k] = .inHand take head

/-- Every event of `s` has closed CUT and counts in the tally (R55, R56, R58). -/
abbrev EventsCut (s t : State) : Prop :=
  s.corr.tallies.cut ≤ 4294967295 → t.corr.tallies.cut = min 4294967295 (s.corr.tallies.cut + s.corr.events.length)

/-- The routes of an attempt pulsed in `s` with these partners, and its end tick: the pulse tick plus each path window, and plus the
largest of them (R137). -/
abbrev AttemptRouted (s t : State) (a : Attempt) (ps : List Partner) : Prop :=
  a.pulseTick = s.timer.clock
    ∧ (∀ p ∈ ps, p.routed = true →
        (t.channel p.chan).route = .tester s.timer.clock (s.timer.clock + BitVec.ofNat 32 (partnerWindow s p)))
    ∧ ∃ w : Nat, a.endTick = s.timer.clock + BitVec.ofNat 32 w ∧ (∀ p ∈ ps, p.routed = true → partnerWindow s p ≤ w)
        ∧ ∃ p ∈ ps, p.routed = true ∧ partnerWindow s p = w

/-- What a falling MPRES puts into the queue of `s` for its condition: the MOULD_PULLED record, with the open cycle's number and the
tick, where there is room, and nothing otherwise (R123, R171). -/
abbrev PulledRecord (s : State) (record : List Job) : Prop :=
  record =
    if active s = true ∧ s.xu.carry = none ∧ journalRoom s = true ∧ queueRoom s = true then
      [jobOf s 0 (.condition (journalSlot s.xu.geometry (s.xu.nextJournal.getD 0)) (s.xu.nextJournal.getD 0)
        (noticed s.xu.noticeMask (flagBit 4))
        { condition := .mouldPulled, chan := none, cycle := s.timer.number, tick := s.timer.clock })]
    else []

/-- A save of the DISMOUNT waits in the queue behind the job in issue, to be discarded with it at a disable (R127, R151). -/
abbrev DismountSaveWaits (s : State) : Prop :=
  s.mould.state = .dismounting
    ∧ ∃ j ∈ (if s.xu.issue = none then s.xu.queue else s.xu.queue.tail), ∃ n c, j.body = .save n c ∧ c.savedBy = .dismount

/-- No hit is open. -/
abbrev NoHit (s : State) : Prop := ∀ c : ChannelNo, (s.channel c).hit = none

/-- No mould: EMPTY, with the record's items none, the tables discarded and every base threshold unset (R104, R120). -/
abbrev MouldLeft (s : State) : Prop :=
  s.mould.state = .empty ∧ s.mould.identity = none ∧ s.mould.offset = none ∧ s.mould.used = [] ∧ s.mould.phase = .none
    ∧ s.mould.read = .none ∧ s.mould.timer = none ∧ s.mould.pendingSave = none ∧ s.evid.tables = none
    ∧ ∀ c : ChannelNo, (s.channel c).base = none

end Sys2Proof.Machine
end

