-- ==== Sys2Proof/Certificates/Slice0/Obligations.lean ====
section
/-! DEFINITION. The statements for the provers: what each command does, what a reset leaves, and the laws that every step keeps. -/

open Sys2Proof Sys2Proof.Machine

/-! ## Steps -/

/-- A step runs the command at the front of the queue, with the queue's rest. The queue of waiting commands is the model's (log
entries 1, 4 and 35). -/
def Obligations.StepRunsFrontCommand : Prop :=
  ∀ (i : Instr) (q : List Instr) (s : State), step { s with pending := i :: q } = exec i { s with pending := q }

/-- Every command, in every state, is answered with a next state; it changes neither the waiting commands nor the variant. That a
command whose condition does not hold, or that finds the part held in reset, leaves the state as it stands is the model's choice
(log entries 2 and 14). -/
def Obligations.EveryCommandCompletes : Prop :=
  ∀ (i : Instr) (s : State), ∃ t, exec i s = .next t ∧ t.pending = s.pending ∧ t.variant = s.variant

/-- With no command waiting a step is one tick of 100 ns, the model's choice (log entry 1). The clock advances by one, but stands while
the part is held in reset (R179) and at its last value, where the wrap is put first among the commands that fall due (R1). Every
running timer is one tick shorter, the instant of an entry into ARMED is over (log entry 12), and nothing else changes; while the
part is held only the board's timers run. The commands that have then fallen due, and no others, join the queue, at a wrap with the
clock at 0; their order is free (log entry 3), and a settle expiry's bias current too (log entry 10). -/
def Obligations.TickAdvancesClock : Prop :=
  ∀ s : State, s.pending = [] →
    ∃ t u, step s = .next t
      ∧ t.timer = { s.timer with
          clock := if held s = true ∨ s.timer.clock = BitVec.allOnes 32 then s.timer.clock else s.timer.clock + 1 }
      ∧ t.board = { s.board with supplyDelay := s.board.supplyDelay.map (· - 1), qualify := s.board.qualify.map (· - 1) }
      ∧ (held s = true → t.lines = s.lines ∧ t.front = s.front ∧ t.evid = s.evid ∧ t.mould = s.mould ∧ t.tester = s.tester)
      ∧ (held s = false →
          (∀ l : Line, t.lines.at l = { s.lines.at l with timer := (s.lines.at l).timer.map (· - 1) })
          ∧ (∀ c : ChannelNo, t.channel c = { s.channel c with
              settle := (s.channel c).settle.map (· - 1), lockout := (s.channel c).lockout.map (· - 1), armedNow := false
              hit := (s.channel c).hit.map fun h => { h with hdtLeft := h.hdtLeft - 1, maxLeft := h.maxLeft - 1 }
              drive := (s.channel c).drive.bind fun d => if d.left ≤ 1 then none else some { d with left := d.left - 1 } })
          ∧ t.evid = { s.evid with blink := s.evid.blink.map fun b => { b with left := b.left - 1 } }
          ∧ t.mould = { s.mould with timer := s.mould.timer.map (· - 1) }
          ∧ t.tester = s.tester.map fun x => { x with rest := x.rest.map (· - 1) })
      ∧ t.front.hitDef = s.front.hitDef ∧ t.corr = s.corr ∧ t.xu = s.xu ∧ t.area = s.area ∧ t.variant = s.variant
      ∧ (held s = false → s.timer.clock = BitVec.allOnes 32 → t.pending.head? = some .clockWrap)
      ∧ u = (if held s = false ∧ s.timer.clock = BitVec.allOnes 32 then
              { t with timer := wrapClock t.timer, freeNext := s.freeNext } else { t with freeNext := s.freeNext })
      ∧ (∀ i : Instr, i ∈ t.pending ↔
          (i = .clockWrap ∧ held s = false ∧ s.timer.clock = BitVec.allOnes 32)
            ∨ (FallsDue u i ∧ (held s = false ∨ i = .supplyReturnDelayExpiry ∨ i = .resetTaken)))

/-! ## Reset (R179) -/

/-- SUPPLY_OUT_OF_RANGE at once, and RESET_TAKEN once a reset pin has been low for 10 µs, hold every block at its values after reset.
What a command does outside its condition is the model's choice (log entry 2), and so are that an operation on the bus is forgotten
(log entry 44), that an earlier raw level is forgotten when the supplies leave their range (log entry 45), that the geometry, the
scan unit's words, kind, base and generation and the saved-by byte are 0, none or LOOK, for which the spec gives no reset value (log
entry 34), and the correlator's serial number (log entry 31); the bytes in memory are those of log entry 7. -/
def Obligations.ResetTakesEveryBlock : Prop :=
  ∀ s : State,
    (∃ t, exec .supplyOutOfRange s = .next t ∧ held t = true ∧ AtReset t ∧ PinsOff t
      ∧ t.board = { s.board with supplyOk := false, supplyDelay := none, powerOn := true }
      ∧ (∀ l : Line, (t.lines.at l).raw = decide ((s.lines.at l).band = .high) ∧ (t.lines.at l).filtered = (s.lines.at l).filtered
          ∧ (t.lines.at l).timer = none)
      ∧ t.variant = s.variant ∧ t.area = s.area ∧ t.pending = s.pending ∧ t.freeNext = s.freeNext)
    ∧ (s.board.qualify = some 0 →
        ∃ t, exec .resetTaken s = .next t ∧ held t = true ∧ AtReset t ∧ PinsOff t
          ∧ t.board = { s.board with qualify := none, rstTaken := true }
          ∧ (∀ l : Line, t.lines.at l = { s.lines.at l with timer := none })
          ∧ t.variant = s.variant ∧ t.area = s.area ∧ t.pending = s.pending ∧ t.freeNext = s.freeNext)
    ∧ (s.board.qualify ≠ some 0 → exec .resetTaken s = .next s)

/-- SUPPLIES_RETURN_WITHIN_RANGE starts the 20 ms delay; SUPPLY_RETURN_DELAY_EXPIRY ends the power-on reset; RST_LOW starts the 10 µs
qualification; RESET_END stops it, so that a shorter pulse is ignored, and ends a reset taken; FUNCTION_LEVEL_RESET changes
nothing. A reset that ends lets every line take its starting level, unless the other reset still holds the part. The two reset
pins share one qualification by the model's choice (log entry 13). -/
def Obligations.ResetsStartAndEnd : Prop :=
  ∀ s : State,
    (s.board.supplyOk = false →
      exec .suppliesReturnWithinRange s = .next { s with board := { s.board with supplyOk := true, supplyDelay := some 200000 } })
    ∧ (s.board.supplyDelay = some 0 →
        exec .supplyReturnDelayExpiry s =
          .next { s with
            board := { s.board with supplyDelay := none, powerOn := false }
            lines := if s.board.rstTaken = true then s.lines
              else s.lines.all fun l => { l with filtered := l.raw, timer := none } })
    ∧ (∀ pin : ResetPin, pinLow s.board = false →
        exec (.rstLow pin) s =
          .next { s with board := { s.board with
            rstLow := decide (pin = .rst), slotLow := decide (pin = .slot), qualify := some 100 } })
    ∧ (∀ pin : ResetPin, pinLow s.board = true →
        exec (.rstLow pin) s =
          .next { s with board := { s.board with
            rstLow := s.board.rstLow || decide (pin = .rst), slotLow := s.board.slotLow || decide (pin = .slot) } })
    ∧ (∀ pin : ResetPin, (if pin = .rst then s.board.slotLow else s.board.rstLow) = true →
        exec (.resetEnd pin) s =
          .next { s with board := { s.board with
            rstLow := s.board.rstLow && decide (pin ≠ .rst), slotLow := s.board.slotLow && decide (pin ≠ .slot) } })
    ∧ (∀ pin : ResetPin, (if pin = .rst then s.board.slotLow else s.board.rstLow) = false →
        exec (.resetEnd pin) s =
          .next { s with
            board := { s.board with rstLow := false, slotLow := false, qualify := none, rstTaken := false }
            lines := if s.board.rstTaken = true ∧ s.board.powerOn = false then
                s.lines.all fun l => { l with filtered := l.raw, timer := none }
              else s.lines })
    ∧ exec .functionLevelReset s = .next s

/-- What a reset leaves: the values of Tables 8, 10, 11, 15, 28, 31, 32, 44, 50 and 60, of R57 and R107 and of the registers of R148,
and the laws of `Safe`. The variant of the state after reset is the model's choice (log entry 6). -/
def Obligations.ResetValues : Prop :=
  Safe State.reset
    ∧ (∀ t : CycleTimer, t = State.reset.timer →
        t.clock = 0 ∧ t.number = 0 ∧ t.openedByReset = true ∧ t.wrapped = false ∧ t.stallMark = false
        ∧ t.captures = ⟨none, none, none, none⟩ ∧ t.extras = ⟨0, 0, 0, 0⟩ ∧ t.press = .stopped ∧ t.pendingPart = none
        ∧ t.installed.cycEdge = .rising ∧ t.installed.phaseEdge = ⟨.none, .none, .none, .none⟩ ∧ stallTick t = 300000000
        ∧ currentRaise t = 0 ∧ currentGate t = 0
        ∧ ∀ w : WindowNo, t.windows[w].state = .disabled
            ∧ t.installed.windows[w] = { anchor := .none, offset := 0, length := 1, weight := 0, raise := 0 })
    ∧ (∀ c : ChannelNo, ∀ x : Channel, x = State.reset.channel c →
        x.state = .off ∧ biasOn State.reset c = false ∧ x.settle = none ∧ x.base = none ∧ x.detector = .idle ∧ x.hit = none
        ∧ x.lockout = none ∧ x.route = .correlator)
    ∧ State.reset.front.hitDef = { hdt := 100, hlt := 500, maxDuration := 20000, minCounts := 2 }
    ∧ State.reset.corr.events = [] ∧ (∀ c : ChannelNo, State.reset.corr.places[c] = .none) ∧ State.reset.corr.tallies = zeroTallies
    ∧ State.reset.evid.tables = none ∧ mouldVerdict State.reset = none ∧ (∀ n : Nat, cavityVerdict State.reset n = .sound)
    ∧ State.reset.evid.part = { decay := 8, tWatch := 1000, tSuspect := 4000, tCrack := 12000, hysteresis := 250, suspectRun := 0
                                stopOnCrack := false }
    ∧ State.reset.evid.stopLatch = false ∧ stopreq State.reset = false ∧ lampOn State.reset = false
    ∧ (∀ m : MouldManager, m = State.reset.mould →
        m.state = .empty ∧ m.identity = none ∧ m.offset = none ∧ m.used = [] ∧ m.settleCode = 0 ∧ m.phase = .none ∧ m.timer = none
        ∧ m.fresh = .none ∧ m.cyclesWatched = 0 ∧ m.saveCount = 0 ∧ m.checkpoint = 0 ∧ m.pendingSave = none ∧ m.order = .none
        ∧ m.mountTimeout = 60 ∧ m.checkpointInterval = 0)
    ∧ State.reset.tester = []
    ∧ (∀ x : Exchange, x = State.reset.xu →
        x.area = .unconfigured ∧ x.checkCode = 0 ∧ x.scan.phase = .idle ∧ x.scan.mark = none ∧ x.lastTaken = none ∧ x.noticeMask = 0
        ∧ x.listSelection = 0 ∧ x.listLevel = 0 ∧ (∀ k : CellNo, x.cells[k] = .free) ∧ x.takeNumber = 0 ∧ x.queue = []
        ∧ x.carry = none ∧ x.mirrorGeneration = 0 ∧ x.lastNoticed = none ∧ x.attn = false ∧ x.nextJournal = none
        ∧ x.nextLocated = none ∧ x.consumedJournal = none ∧ x.consumedLocated = none ∧ x.accruals = noAccruals)
    ∧ (∀ r : Register, readRegister State.reset r = if r = .xident then 0x0110 else 0)

/-! ## Lines and cycles (R4 to R16, R176) -/

/-- LINE_RAW_CHANGE: the raw level follows the voltage outside 5 V to 15 V; a level that differs from the filtered one has the filter
timer running, at 20 ms for MPRES and CLAMP and 10 µs for the others, and one that returns stops it. No timer runs in a reset. The
voltage is given in whole mV, and the raw level is followed during a reset, by the model's choice (log entries 14, 32 and 45). -/
def Obligations.LineRawChangeFilters : Prop :=
  ∀ (l : Line) (mv : Nat) (s : State), ∃ t, exec (.lineRawChange l mv) s = .next t
    ∧ (t.lines.at l).raw = (if mv ≤ 5000 then false else if 15000 ≤ mv then true else (s.lines.at l).raw)
    ∧ (t.lines.at l).filtered = (s.lines.at l).filtered
    ∧ (t.lines.at l).timer =
        (if held s = true ∨ (t.lines.at l).raw = (s.lines.at l).filtered then none
         else some ((s.lines.at l).timer.getD (if l = .mpres ∨ l = .clamp then 200000 else 100)))
    ∧ (∀ m : Line, m ≠ l → t.lines.at m = s.lines.at m)
    ∧ { t with lines := s.lines } = s

/-- A selected CYC edge opens a cycle: the number advances, the clock and the marks, captures and extra-edge counts are cleared, a
pending timing part is installed, the windows are set from the installed definitions, the CYC capture is 0 and the press is
RUNNING. Every event and open hit is gone and the tallies are 0; every event in the list closed CUT and counts so in the record of the
closing cycle (R55), said for a record that is created with no offer listed before it. An edge that is not selected has no effect.
The filtered level's change and its edge are one command. -/
def Obligations.CycEdgeOpensCycle : Prop :=
  ∀ s : State, held s = false → EdgeDue s .cyc →
    (selects s.timer.installed.cycEdge s.lines.cyc.raw = true →
      ∃ t, exec (.lineFilterExpiry .cyc) s = .next t
        ∧ t.timer.number = s.timer.number + 1 ∧ t.timer.clock = 0
        ∧ t.timer.openedByReset = false ∧ t.timer.wrapped = false ∧ t.timer.stallMark = false
        ∧ t.timer.captures = ⟨none, none, none, none⟩ ∧ t.timer.extras = ⟨0, 0, 0, 0⟩
        ∧ t.timer.installed = s.timer.pendingPart.getD s.timer.installed ∧ t.timer.pendingPart = none
        ∧ (∀ w : WindowNo, t.timer.windows[w].defn = t.timer.installed.windows[w]
            ∧ t.timer.windows[w].state =
                if t.timer.installed.windows[w].anchor = .none then .disabled
                else if t.timer.installed.windows[w].anchor = .cyc then
                  (if t.timer.installed.windows[w].offset = 0 then .open else .pending)
                else .waiting)
        ∧ anchorCapture t.timer .cyc = some 0 ∧ t.timer.press = .running
        ∧ t.corr.events = [] ∧ t.corr.tallies = zeroTallies ∧ NoHit t
        ∧ (active s = true → s.xu.carry = none → RoomAfter s 0 → s.xu.listSelection = 0 → s.tester = [] →
            s.corr.tallies.cut ≤ 4294967295 →
              ∃ r, t.xu.queue[s.xu.queue.length]? = some (jobOf s 0 (cycleBody s 0 r)) ∧ r.first = s.timer.number
                ∧ r.tallies.cut = min 65535 (s.corr.tallies.cut + s.corr.events.length))
        ∧ t.lines = (filteredTo .cyc s).lines ∧ OutsideKept s t)
    ∧ (selects s.timer.installed.cycEdge s.lines.cyc.raw = false → exec (.lineFilterExpiry .cyc) s = .next (filteredTo .cyc s))

/-- A cycle close with no event, hit or test in hand. Every zone's tally goes to its lifetime count and is cleared; a zone that is not
blind takes its run, decay and verdict in WATCHING and DEGRADED, and keeps them otherwise; a change into CRACKED sets the stop latch
under stop-on-crack. In those two states the close counts as watched, and a checkpoint falls due at its interval (R124, R125). The
cycle's record is formed and placed, in the journal, as the carry record or merged into it (R168 to R170); while ACTIVE a mirror of
the next generation follows where there is room (R164), a checkpoint that is due or pending is saved or stays pending (R126), and a
CLOSE scan is asked for (R154). The order of the blocks at a close is the model's choice where the spec leaves it free (log entries
27 and 28), the stop indication is that of log entry 40, and a record or mirror of a mould still being read has identity 0 (log entry
43). -/
def Obligations.CloseUpdatesZones : Prop :=
  ∀ s : State, held s = false → EdgeDue s .cyc → selects s.timer.installed.cycEdge s.lines.cyc.raw = true →
    s.corr.events = [] → NoHit s → s.tester = [] → s.mould.pendingSave ≠ some .dismount → s.mould.pendingSave ≠ some .unplanned →
    ∃ t jobs mirror save, exec (.lineFilterExpiry .cyc) s = .next t ∧ (zonesOf t).length = (zonesOf s).length ∧ pathsOf t = pathsOf s
      ∧ t.evid.part = s.evid.part
      ∧ (∀ (i : Nat) (z : ZoneEntry), (zonesOf s)[i]? = some z → ∃ y, (zonesOf t)[i]? = some y
          ∧ y.path = z.path ∧ y.start = z.start ∧ y.stop = z.stop ∧ y.floor = z.floor ∧ y.cavity = z.cavity ∧ y.label = z.label
          ∧ y.lifetime = min 4294967295 (z.lifetime + z.tallyEvents) ∧ y.tallyEvents = 0 ∧ y.tallyActive = false
          ∧ y.lastActive =
              (if watching s = true ∧ z.tallyActive = true then some (min 4294967295 (s.mould.cyclesWatched + 1)) else z.lastActive)
          ∧ (watching s = true ∧ zoneBlind s z = false →
              y.run = (if z.tallyActive = true then min 255 (z.run + 1) else 0) ∧ y.score = decayed s.evid.part.decay z.score
                ∧ y.verdict = verdictAfter s.evid.part z.verdict y.score y.run)
          ∧ (watching s = false ∨ zoneBlind s z = true → y.run = z.run ∧ y.score = z.score ∧ y.verdict = z.verdict))
      ∧ (t.evid.stopLatch = true ↔
          s.evid.stopLatch = true ∨ (s.evid.part.stopOnCrack = true ∧ ∃ i : Nat, ¬ CrackedAt s i ∧ CrackedAt t i))
      ∧ RecordPlaced s (closedRecord s t) jobs t.xu.carry
      ∧ mirror =
          (if active s = true ∧ s.xu.queue.length + jobs.length < 16 then [.mirror (mirrorOf (s.xu.mirrorGeneration + 1) t)] else [])
      ∧ save =
          (if CheckpointWanted s ∧ active s = true ∧ mountingFits s = true
              ∧ s.xu.queue.length + jobs.length + mirror.length < 16 then
            [.save (mountingContext s) (contextCopy .checkpoint (s.mould.saveCount + 1) t)]
          else [])
      ∧ t.xu.queue.map (fun j => (j.base, j.body)) =
          s.xu.queue.map (fun j => (j.base, j.body)) ++ (jobs ++ mirror ++ save).map (fun b => (baseOf s, b))
      ∧ t.xu.nextJournal = s.xu.nextJournal.map (· + BitVec.ofNat 32 jobs.length)
      ∧ t.xu.mirrorGeneration = s.xu.mirrorGeneration + BitVec.ofNat 32 mirror.length ∧ t.xu.accruals = noAccruals
      ∧ (active s = false → t.xu.scan = s.xu.scan)
      ∧ (active s = true → s.xu.scan.phase = .idle → t.xu.scan.phase = .header ∧ t.xu.scan.kind = .close)
      ∧ (active s = true → s.xu.scan.phase ≠ .idle → t.xu.scan = { s.xu.scan with mark := some .close })
      ∧ t.mould = { s.mould with
          cyclesWatched := if watching s = true then min 4294967295 (s.mould.cyclesWatched + 1) else s.mould.cyclesWatched
          checkpoint := if watching s = false then s.mould.checkpoint
            else if s.mould.checkpointInterval = 0 ∨ CheckpointDue s then 0 else s.mould.checkpoint + 1
          saveCount := s.mould.saveCount + BitVec.ofNat 32 save.length
          pendingSave := if CheckpointWanted s then (if save = [] then some .checkpoint else none) else s.mould.pendingSave }
      ∧ t.front = s.front ∧ t.tester = [] ∧ t.lines = (filteredTo .cyc s).lines ∧ OutsideKept s t

/-- A selected edge of FEED, VIB, TAMP or STRIP: the first in the cycle sets the capture to the clock and sets the WAITING windows
anchored to the line, and every window change of this clock value comes with it; a later one adds an extra edge, up to 255. An edge
that is not selected has no effect. -/
def Obligations.PhaseEdgeCaptures : Prop :=
  ∀ (l : Line) (p : PhaseLine) (s : State),
    (l, p) ∈ [(Line.feed, PhaseLine.feed), (Line.vib, PhaseLine.vib), (Line.tamp, PhaseLine.tamp), (Line.strip, PhaseLine.strip)] →
    held s = false → EdgeDue s l →
      (selects (s.timer.installed.phaseEdge.at p) (s.lines.at l).raw = false → exec (.lineFilterExpiry l) s = .next (filteredTo l s))
      ∧ (selects (s.timer.installed.phaseEdge.at p) (s.lines.at l).raw = true → s.timer.captures.at p = none →
          ∃ t, exec (.lineFilterExpiry l) s = .next t ∧ t.timer.captures.at p = some s.timer.clock
            ∧ (∀ q : PhaseLine, q ≠ p → t.timer.captures.at q = s.timer.captures.at q)
            ∧ (∀ w : WindowNo, t.timer.windows[w] =
                windowMoved t.timer
                  (if s.timer.windows[w].state = .waiting ∧ s.timer.windows[w].defn.anchor = .phase p then
                    { s.timer.windows[w] with state := if s.timer.windows[w].defn.offset = 0 then .open else .pending }
                  else s.timer.windows[w]))
            ∧ { t with timer := { t.timer with captures := s.timer.captures, windows := s.timer.windows } } = filteredTo l s)
      ∧ (selects (s.timer.installed.phaseEdge.at p) (s.lines.at l).raw = true → s.timer.captures.at p ≠ none →
          ∃ t, exec (.lineFilterExpiry l) s = .next t ∧ t.timer.extras.at p = min 255 (s.timer.extras.at p + 1)
            ∧ (∀ q : PhaseLine, q ≠ p → t.timer.extras.at q = s.timer.extras.at q)
            ∧ { t with timer := { t.timer with extras := s.timer.extras } } = filteredTo l s)

/-- WINDOW_OPEN and WINDOW_CLOSE: a PENDING window whose open tick the clock has reached becomes OPEN, an OPEN one whose close tick it
has reached becomes SPENT, and every window change of this clock value comes at once. -/
def Obligations.WindowsOpenAndClose : Prop :=
  ∀ (w : WindowNo) (s : State), held s = false →
    (s.timer.windows[w].state = .pending → clockAt s.timer (openTick s.timer s.timer.windows[w].defn) = true →
      ∃ t, exec (.windowOpen w) s = .next t ∧ t.timer.windows[w] = { s.timer.windows[w] with state := .open } ∧ WindowsMoved s t)
    ∧ (s.timer.windows[w].state = .open → clockAt s.timer (closeTick s.timer s.timer.windows[w].defn) = true →
        ∃ t, exec (.windowClose w) s = .next t ∧ t.timer.windows[w] = { s.timer.windows[w] with state := .spent } ∧ WindowsMoved s t)

/-- The current raise and gate are the largest raise and the largest weight among the OPEN windows, each 0 when none is OPEN (R16). -/
def Obligations.RaiseAndGateAreLargest : Prop :=
  ∀ t : CycleTimer,
    (∀ w : WindowNo, t.windows[w].state = .open →
      t.windows[w].defn.raise ≤ currentRaise t ∧ t.windows[w].defn.weight ≤ currentGate t)
    ∧ (currentRaise t = 0 ∨ ∃ w : WindowNo, t.windows[w].state = .open ∧ t.windows[w].defn.raise = currentRaise t)
    ∧ (currentGate t = 0 ∨ ∃ w : WindowNo, t.windows[w].state = .open ∧ t.windows[w].defn.weight = currentGate t)

/-- CLOCK_WRAP at clock 2^32 − 1: the clock is 0, the wrapped mark is set, and every WAITING, PENDING and OPEN window is SPENT. -/
def Obligations.ClockWraps : Prop :=
  ∀ s : State, held s = false → s.timer.clock = BitVec.allOnes 32 →
    ∃ t, exec .clockWrap s = .next t ∧ t.timer.clock = 0 ∧ t.timer.wrapped = true
      ∧ (∀ w : WindowNo, t.timer.windows[w] =
          if s.timer.windows[w].state = .disabled then s.timer.windows[w] else { s.timer.windows[w] with state := .spent })
      ∧ { t with timer := { t.timer with clock := s.timer.clock, wrapped := s.timer.wrapped, windows := s.timer.windows } } = s

/-- STALL on a RUNNING press: the press is STOPPED and the stall mark set, and a STALL condition record with the stall tick is created
where there is room. On a STOPPED press the clock passing the stall tick has no effect. That the condition is handed on before the
tester is judged is the model's choice (log entry 28), and free bytes are indexed by log entry 9. -/
def Obligations.StallStopsPress : Prop :=
  ∀ s : State, held s = false → s.timer.installed.stallLimit * 10000 ≤ s.timer.clock.toNat →
    (s.timer.press = .running →
      ∃ t, exec .stall s = .next t ∧ t.timer = { s.timer with press := .stopped, stallMark := true } ∧ t.lines = s.lines
        ∧ t.evid.stopLatch = s.evid.stopLatch ∧ OutsideKept s t
        ∧ (s.tester = [] →
            t.front = s.front ∧ t.corr = s.corr ∧ t.evid = s.evid ∧ t.mould = s.mould ∧ t.tester = []
            ∧ t.xu.accruals = s.xu.accruals
            ∧ (active s = true → s.xu.carry = none → journalRoom s = true → queueRoom s = true →
                t.xu.queue = s.xu.queue ++
                  [{ base := baseOf s, seed := s.freeNext
                     body := .condition (journalSlot s.xu.geometry (s.xu.nextJournal.getD 0)) (s.xu.nextJournal.getD 0)
                       (noticed s.xu.noticeMask (flagBit 5))
                       { condition := .stall, chan := none, cycle := s.timer.number
                         tick := BitVec.ofNat 32 (s.timer.installed.stallLimit * 10000) } }]
                ∧ t.xu.nextJournal = s.xu.nextJournal.map (· + 1))))
    ∧ (s.timer.press = .stopped → exec .stall s = .next s)

/-! ## Hits (R28 to R37, R42) -/

/-- HIT_START on a LIVE channel with its detector ARMED, by a half-wave that reaches the active threshold, opens the hit of Table 13
and hands its start to the receiver the route gives; no other channel changes. The tester notes the first hit of a routed partner,
with its arrival, and no later one (R138). A half-wave below the threshold starts nothing. The half-wave in progress at the entry
into ARMED is the model's mark `armedNow` (log entry 12), and the route counts as ended at its end tick (log entry 41). -/
def Obligations.HitStartOpensHit : Prop :=
  ∀ (c : ChannelNo) (a b : Nat) (s : State), held s = false → (s.channel c).state = .live → (s.channel c).detector = .armed →
    (s.channel c).armedNow = false → (s.channel c).base = some b →
    (min 99 (b + currentRaise s.timer) ≤ min 100 a →
      ∃ t r, exec (.hitStart c a) s = .next t
        ∧ (r = .tester ↔
            ∃ p e : Word, (s.channel c).route = .tester p e ∧ diff32 s.timer.clock p < diff32 e p)
        ∧ t.channel c =
            { s.channel c with
              detector := .inHit
              hit := some { arrival := s.timer.clock, threshold := min 99 (b + currentRaise s.timer), gate := currentGate s.timer
                            hitDef := s.front.hitDef, counts := 1, peak := min 100 a, lastCrossing := s.timer.clock, receiver := r
                            hdtLeft := s.front.hitDef.hdt * 10, maxLeft := s.front.hitDef.maxDuration * 10 } }
        ∧ (∀ d : ChannelNo, d ≠ c → t.channel d = s.channel d)
        ∧ (r = .correlator → t.corr.tallies.delivered = min 4294967295 (s.corr.tallies.delivered + 1) ∧ t.tester = s.tester)
        ∧ (r = .tester → t.corr = s.corr ∧ t.evid = s.evid ∧ t.xu = s.xu ∧ t.tester.tail = s.tester.tail
            ∧ ∀ x : Test, s.tester.head? = some x →
                t.tester.head? = some (if x.attempt = none then x else
                  { x with partners := x.partners.map fun p =>
                      if p.chan = c ∧ p.routed = true ∧ p.firstSeen = false then
                        { p with firstSeen := true, hitOpen := true, arrival := s.timer.clock }
                      else p }))
        ∧ t.front.hitDef = s.front.hitDef ∧ t.timer = s.timer ∧ t.mould = s.mould ∧ t.lines = s.lines
        ∧ t.evid.stopLatch = s.evid.stopLatch ∧ OutsideKept s t)
    ∧ (min 100 a < min 99 (b + currentRaise s.timer) → exec (.hitStart c a) s = .next s)

/-- A hit start that no OPEN event accepts opens an event at the back of the list, with the channel's widest window as its span; without
one the event is CLOSING at once (R47, R49). On a list of 32 the event at the front is first closed FORCED with the members that
have ended, and the hit places of the others become DETACHED (R50). The event's serial is the model's name for it (log entry 31). -/
def Obligations.HitOpensEvent : Prop :=
  ∀ (c : ChannelNo) (a b : Nat) (s : State), held s = false → (s.channel c).state = .live → (s.channel c).detector = .armed →
    (s.channel c).armedNow = false → (s.channel c).base = some b → (s.channel c).route = .correlator →
    min 99 (b + currentRaise s.timer) ≤ min 100 a → (∀ e ∈ s.corr.events, accepts s c s.timer.clock e = false) →
      ∃ t, exec (.hitStart c a) s = .next t
        ∧ t.corr.events = (if s.corr.events.length < 32 then s.corr.events else s.corr.events.tail) ++
            [{ serial := s.corr.nextSerial, firstChannel := c, firstArrival := s.timer.clock
               deadline := s.timer.clock + BitVec.ofNat 32 ((widestWindow (pathsOf s) c).getD 0)
               widest := (widestWindow (pathsOf s) c).getD 0, closing := decide ((widestWindow (pathsOf s) c).getD 0 = 0)
               members := [{ chan := c, arrival := s.timer.clock, gate := currentGate s.timer, ended := none }] }]
        ∧ t.corr.places[c] = .member s.corr.nextSerial
        ∧ (s.corr.events.length < 32 →
            (∀ d : ChannelNo, d ≠ c → t.corr.places[d] = s.corr.places[d])
            ∧ t.corr.tallies = { s.corr.tallies with delivered := min 4294967295 (s.corr.tallies.delivered + 1) }
            ∧ t.evid = s.evid ∧ t.xu = s.xu)
        ∧ (∀ (e f : Event) (es : List Event), s.corr.events = e :: es → 32 ≤ s.corr.events.length →
            f = { e with members := e.members.filter fun m => m.ended.isSome } →
            (∀ d : ChannelNo, d ≠ c →
              t.corr.places[d] = if ∃ m ∈ e.members, m.chan = d ∧ m.ended = none then .detached else s.corr.places[d])
            ∧ t.corr.tallies =
                tallyEvent { s.corr.tallies with delivered := min 4294967295 (s.corr.tallies.delivered + 1) } (classOf s f) .forced
                  (f.members.countP Member.rejected))
        ∧ t.evid.part = s.evid.part ∧ t.evid.stopLatch = s.evid.stopLatch ∧ t.mould = s.mould ∧ t.tester = s.tester
        ∧ t.timer = s.timer ∧ t.lines = s.lines ∧ OutsideKept s t

/-- A hit start joins the first event from the front that accepts it: an OPEN event with no member of the channel, whose first channel
a path joins to it within that path's window (R46 to R48). The event's serial is the model's name for it (log entry 31). -/
def Obligations.HitJoinsFirstAcceptingEvent : Prop :=
  ∀ (c : ChannelNo) (a b i : Nat) (e : Event) (p : PathEntry) (before after : List Event) (s : State), held s = false →
    (s.channel c).state = .live → (s.channel c).detector = .armed → (s.channel c).armedNow = false → (s.channel c).base = some b →
    (s.channel c).route = .correlator → min 99 (b + currentRaise s.timer) ≤ min 100 a → s.corr.events = before ++ e :: after →
    (∀ x ∈ before, accepts s c s.timer.clock x = false) → e.closing = false → (∀ m ∈ e.members, m.chan ≠ c) →
    joiningPath (pathsOf s) c e.firstChannel = some (i, p) → diff32 s.timer.clock e.firstArrival ≤ p.window →
      ∃ t, exec (.hitStart c a) s = .next t
        ∧ t.corr.events = before ++
            { e with members := e.members ++ [{ chan := c, arrival := s.timer.clock, gate := currentGate s.timer, ended := none }] } :: after
        ∧ t.corr.places[c] = .member e.serial ∧ (∀ d : ChannelNo, d ≠ c → t.corr.places[d] = s.corr.places[d])
        ∧ t.evid = s.evid ∧ t.xu = s.xu ∧ t.mould = s.mould ∧ t.tester = s.tester ∧ t.timer = s.timer ∧ t.lines = s.lines
        ∧ OutsideKept s t

/-- HIT_CROSSING counts a crossing of the held threshold and restarts the HDT timer; LOCKOUT_EXPIRY arms the detector; ROUTE_END gives
the channel's route back to the correlator. Nothing else changes. The entry into ARMED sets the model's mark `armedNow` (log entry
12). -/
def Obligations.ChannelTimersAct : Prop :=
  ∀ (c : ChannelNo) (s : State), held s = false →
    (∀ (h : OpenHit) (a : Nat), (s.channel c).detector = .inHit → (s.channel c).hit = some h →
      (h.threshold ≤ min 100 a →
        exec (.hitCrossing c a) s =
          .next (s.onChannel c fun ch => { ch with
            hit := some { h with
              counts := min 65535 (h.counts + 1), peak := max h.peak (min 100 a), lastCrossing := s.timer.clock
              hdtLeft := h.hitDef.hdt * 10 } }))
      ∧ (min 100 a < h.threshold → exec (.hitCrossing c a) s = .next s))
    ∧ ((s.channel c).detector = .lockout → (s.channel c).lockout = some 0 →
        exec (.lockoutExpiry c) s =
          .next (s.onChannel c fun ch => { ch with detector := .armed, armedNow := true, lockout := none }))
    ∧ (∀ p e : Word, (s.channel c).route = .tester p e → diff32 e p ≤ diff32 s.timer.clock p →
        exec (.routeEnd c) s = .next (s.onChannel c fun ch => { ch with route := .correlator }))

/-- HDT_EXPIRY and MAX_DURATION_EXPIRY end the open hit: the detector enters LOCKOUT for the hit's HLT, or ARMED when it is 0, and no
other channel changes. The end of a partner's first hit in an attempt makes it heard, with its transit, peak and calibration, unless
it was heard in an earlier attempt, or the hit is LONG, REJECTED or below the required amplitude (R138, R145). (The last tester hit
of a DRAINING attempt brings the judgement of R139, which this statement leaves aside.) The entry into ARMED sets the model's mark
`armedNow` (log entry 12). -/
def Obligations.HitEndsByTimer : Prop :=
  ∀ (c : ChannelNo) (h : OpenHit) (long : Bool) (s : State), held s = false → (s.channel c).detector = .inHit →
    (s.channel c).hit = some h → (if long = true then h.maxLeft else h.hdtLeft) = 0 →
    (h.receiver = .correlator ∨ ∀ x ∈ s.tester.head?, x.state ≠ .draining
        ∨ (x.attempt ≠ none ∧ ∃ p ∈ x.partners, p.routed = true ∧ p.hitOpen = true ∧ p.chan ≠ c)) →
      ∃ t, exec (if long = true then .maxDurationExpiry c else .hdtExpiry c) s = .next t
        ∧ t.channel c =
            (if h.hitDef.hlt = 0 then { s.channel c with hit := none, detector := .armed, armedNow := true }
             else { s.channel c with hit := none, detector := .lockout, lockout := some (h.hitDef.hlt * 10) })
        ∧ (∀ d : ChannelNo, d ≠ c → t.channel d = s.channel d)
        ∧ (h.receiver = .correlator → t.tester = s.tester)
        ∧ (h.receiver = .tester → t.corr = s.corr ∧ t.evid = s.evid ∧ t.xu = s.xu ∧ t.tester.tail = s.tester.tail
            ∧ ∀ (x : Test) (a : Attempt), s.tester.head? = some x → x.attempt = some a →
                t.tester.head? = some { x with partners := x.partners.map fun p =>
                  if p.chan = c ∧ p.hitOpen = true then
                    { p with
                      hitOpen := false
                      heardNow :=
                        if p.outcome ≠ some .pass ∧ p.outcome ≠ some .weak ∧ long = false ∧ h.hitDef.minCounts ≤ h.counts
                            ∧ x.required ≤ h.peak then
                          some { transit := diff32 p.arrival a.pulseTick, peak := h.peak
                                 calibration := (calibrate (diff32 p.arrival a.pulseTick) (pathLength s p.path) x.delay).1
                                 velocity := (calibrate (diff32 p.arrival a.pulseTick) (pathLength s p.path) x.delay).2 }
                        else none }
                  else p })
        ∧ t.front.hitDef = s.front.hitDef ∧ t.timer = s.timer ∧ t.mould = s.mould ∧ t.lines = s.lines
        ∧ t.evid.stopLatch = s.evid.stopLatch ∧ OutsideKept s t

/-- The end of a correlator's hit fills its member, with the REJECTED mark below the minimum counts and the LONG mark of a maximum-
duration expiry; an event that is CLOSING with every member ended leaves the list and is tallied by its class; the end of a
detached hit is an orphan (R34, R53, R58). Events are named by the model's serials (log entry 31). -/
def Obligations.HitEndReachesCorrelator : Prop :=
  ∀ (c : ChannelNo) (h : OpenHit) (long : Bool) (s : State), held s = false → (s.channel c).detector = .inHit →
    (s.channel c).hit = some h → (if long = true then h.maxLeft else h.hdtLeft) = 0 → h.receiver = .correlator →
      ∃ t, exec (if long = true then .maxDurationExpiry c else .hdtExpiry c) s = .next t ∧ t.corr.places[c] = .none
        ∧ (∀ d : ChannelNo, d ≠ c → t.corr.places[d] = s.corr.places[d]) ∧ t.tester = s.tester ∧ OutsideKept s t
        ∧ (s.corr.places[c] = .detached →
            t.corr.events = s.corr.events
            ∧ t.corr.tallies = { s.corr.tallies with orphan := min 4294967295 (s.corr.tallies.orphan + 1) }
            ∧ t.evid = s.evid ∧ t.xu = s.xu)
        ∧ (∀ (n : Nat) (e f : Event), s.corr.places[c] = .member n → findEvent s n = some e →
            f = { e with members := e.members.map fun m =>
                    if m.chan = c then
                      { m with ended := some { peak := h.peak, counts := h.counts, long := long, cut := false
                                               rejected := decide (h.counts < h.hitDef.minCounts) } }
                    else m } →
            (f.closing = true ∧ (∀ m ∈ f.members, m.ended ≠ none) →
              t.corr.events = (s.corr.events.filter fun x => decide (x.serial ≠ n))
              ∧ t.corr.tallies = tallyEvent s.corr.tallies (classOf s f) .expiry (f.members.countP Member.rejected))
            ∧ (f.closing = false ∨ (∃ m ∈ f.members, m.ended = none) →
                findEvent t n = some f ∧ t.corr.events.length = s.corr.events.length ∧ t.corr.tallies = s.corr.tallies
                ∧ t.evid = s.evid ∧ t.xu = s.xu))

/-! ## Channel states (R22 to R26, R109, R116) -/

/-- SETTLE_EXPIRY with a bias current of at most 30 mA makes the channel LIVE with its detector ARMED. A DEGRADED mould whose used
channels are then all LIVE or PULSING is WATCHING again (R109; no state reached from reset has a SETTLING channel in DEGRADED). A
MOUNT in phase SETTLING whose used channels have then all settled is complete: WATCHING, or DEGRADED with a channel FAULT, answered
OK, or OK_FRESH with its reason, with a mirror after it (R116). A SUSPENDED mould with its clamp locked whose used channels have
then all settled is WATCHING or DEGRADED again (R122; log entry 26). The entry into ARMED sets the model's mark `armedNow` (log entry
12). -/
def Obligations.SettleMakesLive : Prop :=
  ∀ (c : ChannelNo) (ua : Nat) (s : State), held s = false → (s.channel c).state = .settling → (s.channel c).settle = some 0 →
    ua ≤ 30000 →
      ∃ t, exec (.settleExpiry c ua) s = .next t
        ∧ t.channel c = { s.channel c with state := .live, settle := none, detector := .armed, armedNow := true }
        ∧ (∀ d : ChannelNo, d ≠ c → t.channel d = s.channel d) ∧ t.front.hitDef = s.front.hitDef
        ∧ t.timer = s.timer ∧ t.corr = s.corr ∧ t.evid = s.evid ∧ t.tester = s.tester ∧ t.lines = s.lines ∧ OutsideKept s t
        ∧ (c ∉ s.mould.used → t.mould = s.mould ∧ t.xu = s.xu)
        ∧ (c ∈ s.mould.used → s.mould.state = .degraded → (∀ d ∈ s.mould.used, d ≠ c → hearing s d = true) →
            t.mould = { s.mould with state := .watching })
        ∧ (c ∈ s.mould.used → s.mould.state = .mounting → s.mould.phase = .settling →
            (∀ d ∈ s.mould.used, d ≠ c → settled s d = true) →
            t.mould = { s.mould with
              phase := .none, checkpoint := 0, order := .none
              state := if s.mould.used.all (fun d => decide (d = c) || live s d) = true then .watching else .degraded }
            ∧ (∀ (o : OrderRef) (head : Option OrderHead), s.mould.order = .mount o → s.xu.cells[o.cell] = .inHand o.take head →
                active s = true → s.xu.queue.length + 1 < 16 →
                t.xu.queue = s.xu.queue ++
                  [jobOf s 0 (.result o.cell o.take (notifyOf head)
                     (if s.mould.fresh = .none then .mountOk s.mould.loadedSavedBy s.mould.cyclesWatched else .okFresh s.mould.fresh)),
                   jobOf s 1 (.mirror (mirrorOf (s.xu.mirrorGeneration + 1) t))]
                ∧ t.xu.mirrorGeneration = s.xu.mirrorGeneration + 1))
        ∧ (c ∈ s.mould.used → s.mould.state = .suspended →
            t.xu = s.xu
            ∧ t.mould =
                if clampLocked s = true ∧ ∀ d ∈ s.mould.used, d ≠ c → settled s d = true then
                  { s.mould with
                    state := if s.mould.used.all (fun d => decide (d = c) || live s d) = true then .watching else .degraded }
                else s.mould)

/-- SETTLE_EXPIRY with more than 30 mA, and BIAS_OVERLOAD of a LIVE or PULSING channel, make the channel FAULT without bias, end its
hit and its timers, and mark CHANNEL_FAULT in the open cycle's record. A watched mould that uses the channel is DEGRADED (R109). -/
def Obligations.BiasFaultsChannel : Prop :=
  ∀ (c : ChannelNo) (ua : Nat) (i : Instr) (s : State), held s = false →
    ((i = .settleExpiry c ua ∧ (s.channel c).state = .settling ∧ (s.channel c).settle = some 0 ∧ 30000 < ua)
      ∨ (i = .biasOverload c ∧ ((s.channel c).state = .live ∨ (s.channel c).state = .pulsing))) →
      ∃ t, exec i s = .next t
        ∧ t.channel c = { state := .fault, settle := none, base := (s.channel c).base, detector := .idle, hit := none, lockout := none
                          route := .correlator, armedNow := false, drive := none }
        ∧ biasOn t c = false ∧ t.xu.accruals.flags &&& flagBit 2 = flagBit 2
        ∧ (c ∈ s.mould.used → watching s = true → t.mould.state = .degraded)
        ∧ t.timer = s.timer ∧ t.lines = s.lines ∧ t.evid.stopLatch = s.evid.stopLatch ∧ OutsideKept s t

/-! ## Events, location and evidence (R52, R58 to R78, R86 to R102) -/

/-- EVENT_DEADLINE of an OPEN event: it closes EXPIRY when every member has ended, leaving the list with its class tallied; otherwise
it becomes CLOSING (R52, R58). An UNZONED event is offered to the located-event list without zone or increment, and one that is
neither LOCATED nor UNZONED is handed to no block (R63, R174). Events are named by the model's serials (log entry 31); the list size
in force is that of log entry 39. -/
def Obligations.DeadlineClosesEvent : Prop :=
  ∀ (n : Nat) (e : Event) (s : State), held s = false → findEvent s n = some e → e.closing = false →
    diff32 e.deadline e.firstArrival ≤ diff32 s.timer.clock e.firstArrival →
      ∃ t, exec (.eventDeadline n) s = .next t
        ∧ ((∀ m ∈ e.members, m.ended ≠ none) →
            t.corr.events = (s.corr.events.filter fun x => decide (x.serial ≠ n))
            ∧ t.corr.tallies = tallyEvent s.corr.tallies (classOf s e) .expiry (e.members.countP Member.rejected)
            ∧ t.corr.places = s.corr.places
            ∧ (∀ path pos : Nat, classOf s e = .unzoned path pos →
                t.evid = s.evid
                ∧ Offered { cycle := s.timer.number, arrival := e.firstArrival, cause := .expiry, path := path, position := pos
                            zone := none, increment := 0, peak := e.amplitude, gate := e.gate, members := e.members.map (·.chan) } s t)
            ∧ ((∀ path pos : Nat, classOf s e ≠ .unzoned path pos) → (∀ path pos z : Nat, classOf s e ≠ .located path pos z) →
                t.evid = s.evid ∧ t.xu = s.xu))
        ∧ ((∃ m ∈ e.members, m.ended = none) →
            findEvent t n = some { e with closing := true }
            ∧ (∀ k : Nat, k ≠ n → findEvent t k = findEvent s k) ∧ t.corr.tallies = s.corr.tallies
            ∧ { t with corr := s.corr } = s)
        ∧ t.timer = s.timer ∧ t.front = s.front ∧ t.mould = s.mould ∧ t.tester = s.tester ∧ t.lines = s.lines
        ∧ t.evid.stopLatch = s.evid.stopLatch ∧ OutsideKept s t

/-- An event that closes LOCATED in a zone raises its score by the increment of its gate weight, amplitude and floor, stopping at
65535, and counts in its tally; the verdicts, the other zones and the paths stand (R86). It is offered to the located-event list with
the zone's label and verdict and the increment (R63, R174); the list size in force is that of log entry 39. -/
def Obligations.LocatedEventScores : Prop :=
  ∀ (n path pos z : Nat) (e : Event) (y : ZoneEntry) (s : State), held s = false → findEvent s n = some e → e.closing = false →
    diff32 e.deadline e.firstArrival ≤ diff32 s.timer.clock e.firstArrival → (∀ m ∈ e.members, m.ended ≠ none) →
    classOf s e = .located path pos z → (zonesOf s)[z]? = some y →
      ∃ t I, exec (.eventDeadline n) s = .next t
        ∧ I = (if y.floor ≤ e.amplitude then e.gate * (e.amplitude - y.floor + 1) else 0)
        ∧ (zonesOf t)[z]? =
            some { y with score := min 65535 (y.score + I), tallyEvents := min 255 (y.tallyEvents + 1)
                          tallyActive := y.tallyActive || decide (0 < I) }
        ∧ (∀ j : Nat, j ≠ z → (zonesOf t)[j]? = (zonesOf s)[j]?) ∧ pathsOf t = pathsOf s ∧ t.evid.part = s.evid.part
        ∧ Offered { cycle := s.timer.number, arrival := e.firstArrival, cause := .expiry, path := path, position := pos
                    zone := some (z, y.label, y.verdict), increment := I, peak := e.amplitude, gate := e.gate
                    members := e.members.map (·.chan) } s t

/-- A LOCATED or UNZONED event's position lies on its path, from 0 to the path's length, and a LOCATED one's within its zone's bounds,
on the zone's path. -/
def Obligations.PositionLiesOnPath : Prop :=
  ∀ (e : Event) (path pos : Nat) (s : State),
    (classOf s e = .unzoned path pos → ∃ p, (pathsOf s)[path]? = some p ∧ 0 ≤ pos ∧ pos ≤ p.length)
    ∧ (∀ z : Nat, classOf s e = .located path pos z →
        (∃ p, (pathsOf s)[path]? = some p ∧ 0 ≤ pos ∧ pos ≤ p.length)
        ∧ ∃ y, (zonesOf s)[z]? = some y ∧ y.path = path ∧ y.start ≤ pos ∧ pos ≤ y.stop)

/-- The location arithmetic keeps the bounds of Table 24 for every length, velocity and margin of R68 and every arrival difference
within the path window (R69, R72 to R74). -/
def Obligations.LocationArithmeticBounded : Prop :=
  ∀ (L V m : Nat) (dt : Int), 50 ≤ L → L ≤ 4000 → 100 ≤ V → V ≤ 1000 → m ≤ 65535 → dt.natAbs ≤ pathWindow L V m →
    50 ≤ pathWindow L V m ∧ pathWindow L V m ≤ 105535
    ∧ ((V : Int) * dt).natAbs ≤ L * 1000 + V * m + V - 1 ∧ ((V : Int) * dt).natAbs ≤ 69535999
    ∧ -65535999 ≤ doubledDistance L V dt ∧ doubledDistance L V dt ≤ 73535999
    ∧ -32768 ≤ positionOf (doubledDistance L V dt) ∧ positionOf (doubledDistance L V dt) ≤ 36768

/-- The guard clamp of R75, each of its five cases, and what follows from it. -/
def Obligations.GuardClampRule : Prop :=
  ∀ (L g : Nat) (pos : Int),
    (0 ≤ pos → pos ≤ L → guardClamp L g pos = some pos.toNat)
    ∧ (pos < 0 → -pos ≤ g → guardClamp L g pos = some 0)
    ∧ (pos < 0 → g < -pos → guardClamp L g pos = none)
    ∧ (L < pos → pos - L ≤ g → guardClamp L g pos = some L)
    ∧ (L < pos → g < pos - L → guardClamp L g pos = none)
    ∧ (∀ n : Nat, guardClamp L g pos = some n → n ≤ L ∧ ((n : Int) - pos).natAbs ≤ g)

/-- The decay of R90, and the verdict of R91 to R93 with its hysteresis and run floor. -/
def Obligations.DecayAndVerdict : Prop :=
  (∀ k S : Nat, (k = 0 → decayed k S = S) ∧ (0 < k → decayed k S = S - S / 2 ^ k) ∧ (0 < k → S < 2 ^ k → decayed k S = S)
      ∧ (0 < k → 2 ^ k ≤ S → decayed k S < S) ∧ decayed k S ≤ S)
    ∧ ∀ (e : EvidencePart) (v : Verdict) (S run : Nat), e.tWatch < e.tSuspect → e.tSuspect < e.tCrack → e.hysteresis < e.tWatch →
      (v = .cracked → verdictAfter e v S run = .cracked)
      ∧ (v ≠ .cracked →
          ∃ up down chosen : Nat,
            (∀ n : Nat, n ≤ up ↔ n = 0 ∨ (n = 1 ∧ e.tWatch ≤ S) ∨ (n = 2 ∧ e.tSuspect ≤ S) ∨ (n = 3 ∧ e.tCrack ≤ S))
            ∧ (∀ n : Nat, n ≤ down ↔ n = 0 ∨ (n = 1 ∧ e.tWatch - e.hysteresis ≤ S) ∨ (n = 2 ∧ e.tSuspect - e.hysteresis ≤ S)
                ∨ (n = 3 ∧ e.tCrack - e.hysteresis ≤ S))
            ∧ up ≤ down
            ∧ chosen = (if v.level < up then up else if down < v.level then down else v.level)
            ∧ (verdictAfter e v S run).level =
                (if 0 < e.suspectRun ∧ e.suspectRun ≤ run ∧ chosen < 2 then 2 else chosen))

/-- A CRACKED zone keeps its verdict through every step that leaves the zone table standing, but a CLEAR_ZONE, while no record of a
MOUNT is being read (R93, R94, R100). -/
def Obligations.CrackedVerdictStands : Prop :=
  ∀ (i : Nat) (s t : State), CrackedAt s i → s.mould.read = .none →
    (∀ (notify : Bool) (tag : Half) (zone : Nat) (q : List Instr), s.pending ≠ .clearZone notify tag zone :: q) →
    step s = .next t → t.evid.tables = none ∨ CrackedAt t i

/-- The stop latch rises only at a selected CYC edge with stop-on-crack enabled, at which a zone changes into CRACKED (R98, R177). A
save that was held back may discard the tables at the same close. -/
def Obligations.StopLatchRisesAtCrack : Prop :=
  ∀ s t : State, step s = .next t → s.evid.stopLatch = false → t.evid.stopLatch = true →
    (∃ q : List Instr, s.pending = .lineFilterExpiry .cyc :: q) ∧ held s = false
      ∧ selects s.timer.installed.cycEdge s.lines.cyc.raw = true ∧ s.evid.part.stopOnCrack = true
      ∧ (t.evid.tables = none ∨ ∃ i : Nat, ¬ CrackedAt s i ∧ CrackedAt t i)

/-- CLEAR_ZONE carried out sets score 0, SOUND, run 0 and an empty tally in the named zone, or in every zone for 255, and lets the
stop latch stand; RELEASE_STOP clears the stop latch and STOPREQ, and lets the zones stand. Each is answered OK (R100, R102): on a
full queue the result waits in the cell's entry, and outside ACTIVE it is discarded with the entry FREE (R160). After the OK of a
CLEAR_ZONE a mirror of the cleared zones follows where there is room, with the next generation (R100, R164). A read of the cell gives
the order's fields as operands (log entry 8). -/
def Obligations.EvidenceOrdersCarriedOut : Prop :=
  ∀ (k : CellNo) (notify : Bool) (tag : Half) (s : State), OrderRead s k →
    (∀ zone : Nat, s.mould.state = .watching ∨ s.mould.state = .degraded ∨ s.mould.state = .suspended →
      zone = 255 ∨ zone < (zonesOf s).length →
        ∃ t, exec (.clearZone notify tag zone) s = .next t
          ∧ (∀ i : Nat, (zonesOf t)[i]? =
              if zone = 255 ∨ i = zone then
                (zonesOf s)[i]?.map fun z => { z with score := 0, verdict := .sound, run := 0, tallyEvents := 0, tallyActive := false }
              else (zonesOf s)[i]?)
          ∧ pathsOf t = pathsOf s ∧ t.evid.stopLatch = s.evid.stopLatch ∧ t.evid.part = s.evid.part
          ∧ (active s = true → queueRoom s = true →
              t.xu.cells[k] = .inHand s.xu.takeNumber (some { kind := 4, notify := notify, tag := tag })
              ∧ (s.xu.queue.length + 1 < 16 →
                  t.xu.queue = s.xu.queue ++
                    [resultJob s k notify .ok, jobOf s 1 (.mirror (mirrorOf (s.xu.mirrorGeneration + 1) t))]
                  ∧ t.xu.mirrorGeneration = s.xu.mirrorGeneration + 1)
              ∧ (16 ≤ s.xu.queue.length + 1 →
                  t.xu.queue = s.xu.queue ++ [resultJob s k notify .ok] ∧ t.xu.mirrorGeneration = s.xu.mirrorGeneration))
          ∧ (active s = true → queueRoom s = false →
              t.xu.queue = s.xu.queue ∧ t.xu.mirrorGeneration = s.xu.mirrorGeneration
              ∧ t.xu.cells[k] = .resultWaiting s.xu.takeNumber (some { kind := 4, notify := notify, tag := tag }) .ok)
          ∧ (active s = false →
              t.xu.queue = s.xu.queue ∧ t.xu.mirrorGeneration = s.xu.mirrorGeneration ∧ t.xu.cells[k] = .free)
          ∧ t.timer = s.timer ∧ t.front = s.front ∧ t.corr = s.corr ∧ t.mould = s.mould ∧ t.tester = s.tester ∧ t.lines = s.lines
          ∧ OutsideKept s t)
    ∧ (∃ t, exec (.releaseStop notify tag) s = .next t ∧ t.evid = { s.evid with stopLatch := false } ∧ stopreq t = false
        ∧ (active s = true → queueRoom s = true →
            t.xu.queue = s.xu.queue ++ [resultJob s k notify .ok]
            ∧ t.xu.cells[k] = .inHand s.xu.takeNumber (some { kind := 5, notify := notify, tag := tag }))
        ∧ (active s = true → queueRoom s = false →
            t.xu.queue = s.xu.queue
            ∧ t.xu.cells[k] = .resultWaiting s.xu.takeNumber (some { kind := 5, notify := notify, tag := tag }) .ok)
        ∧ (active s = false → t.xu.queue = s.xu.queue ∧ t.xu.cells[k] = .free)
        ∧ t.timer = s.timer ∧ t.front = s.front ∧ t.corr = s.corr ∧ t.mould = s.mould ∧ t.tester = s.tester ∧ t.lines = s.lines
        ∧ OutsideKept s t)

/-- LAMP_BLINK_TOGGLE takes the other half of the blink, for 500 ms. LAMP is on for a CRACKED mould, follows the blink for a SUSPECT
one, and is off for any other, and while the supplies are out of range (R99, R177). -/
def Obligations.LampFollowsVerdict : Prop :=
  ∀ s : State,
    (∀ b : Blink, held s = false → s.evid.blink = some b → b.left = 0 →
      exec .lampBlinkToggle s = .next { s with evid := { s.evid with blink := some { on := !b.on, left := 5000000 } } })
    ∧ (s.board.supplyOk = true →
        (mouldVerdict s = some .cracked → lampOn s = true)
        ∧ (∀ b : Blink, mouldVerdict s = some .suspect → s.evid.blink = some b → lampOn s = b.on)
        ∧ (mouldVerdict s = none ∨ mouldVerdict s = some .sound ∨ mouldVerdict s = some .watch → lampOn s = false))
    ∧ (s.board.supplyOk = false → lampOn s = false)

/-! ## The mould manager (R110 to R123) -/

/-- MOUNT accepted: EMPTY, a mould present, and an offset that fits put the mould in MOUNTING, phase READING, with the fixed part's
read issued and the order in hand (R110, R111). The cell's read gives the order's fields as operands (log entry 8). -/
def Obligations.MountStartsReading : Prop :=
  ∀ (k : CellNo) (notify fresh : Bool) (tag : Half) (offset : Nat) (s : State), OrderRead s k →
    s.mould.state = .empty → mouldPresent s = true → offset % 8 = 0 → recordFits s.xu.geometry offset 8 = true →
      ∃ t, exec (.mount notify tag offset fresh) s = .next t
        ∧ t.mould = { s.mould with
            state := .mounting, phase := .reading, read := .fixed, offset := some offset, order := .mount (orderOf s k tag)
            fresh := if fresh = true then .flag else .none }
        ∧ t.xu.cells[k] = .inHand s.xu.takeNumber (some { kind := 1, notify := notify, tag := tag })
        ∧ t.xu.queue = s.xu.queue ∧ { t with xu := s.xu, mould := s.mould } = s

/-- Orders answered at once with a refusal, while ACTIVE with room in the queue: MOUNT by Table 34, DISMOUNT without a mould (R118),
TEST_SENSOR by Table 40 and on the 0840 (R132, R159), CLEAR_ZONE by R100, and an order of unknown kind (R159). The cell's read
gives the order's fields as operands (log entry 8); free bytes are indexed by log entry 9. -/
def Obligations.OrdersRefused : Prop :=
  ∀ (k : CellNo) (notify : Bool) (tag : Half) (s : State), OrderRead s k → active s = true → queueRoom s = true →
    (∀ (offset : Nat) (fresh : Bool) (r : OrderResult),
      (if s.mould.state ≠ .empty then r = .mounted
       else if mouldPresent s = false then r = .noMould
       else (offset % 8 ≠ 0 ∨ recordFits s.xu.geometry offset 8 = false) ∧ r = .areaBounds) →
        ∃ t, exec (.mount notify tag offset fresh) s = .next t ∧ Answered s k { kind := 1, notify := notify, tag := tag } r t)
    ∧ (s.mould.state = .empty ∨ s.mould.state = .dismounting →
        ∃ t, exec (.dismount notify tag) s = .next t ∧ Answered s k { kind := 2, notify := notify, tag := tag } .noMould t)
    ∧ (∀ (source amplitude level attempts delay : Nat) (apply : Bool) (r : OrderResult),
        (if s.variant = .omplar0840 then r = .notSupported
         else if watching s = false then r = .noMould
         else if ∀ c ∈ s.mould.used, c.val ≠ source then r = .badArgument .channel
         else if 100 < amplitude then r = .badArgument .amplitude
         else if 7 < level then r = .badArgument .level
         else if attempts = 0 ∨ 15 < attempts then r = .badArgument .attempts
         else if 255 < delay then r = .badArgument .delay
         else if ∀ p ∈ pathsOf s, p.endA.val ≠ source ∧ p.endB.val ≠ source then r = .badArgument .noPartner
         else 8 ≤ s.tester.length ∧ r = .badArgument .queueFull) →
          ∃ t, exec (.testSensor notify tag source amplitude level attempts delay apply) s = .next t
            ∧ Answered s k { kind := 3, notify := notify, tag := tag } r t)
    ∧ (∀ (zone : Nat) (r : OrderResult),
        (if s.mould.state = .empty ∨ s.mould.state = .mounting ∨ s.mould.state = .dismounting then r = .noMould
         else zone ≠ 255 ∧ (zonesOf s).length ≤ zone ∧ r = .badArgument .zone) →
          ∃ t, exec (.clearZone notify tag zone) s = .next t ∧ Answered s k { kind := 4, notify := notify, tag := tag } r t)
    ∧ (∀ kind : Nat, kind = 0 ∨ 5 < kind →
        ∃ t, exec (.badKind notify tag kind) s = .next t ∧ Answered s k { kind := kind, notify := notify, tag := tag } .badKind t)

/-- DISMOUNT of a mounted mould cuts the open hits, closes every event CUT, aborts the tests and takes the bias off every used channel.
With nothing to cut or abort it is DISMOUNTING with its save job created, or, where the record does not fit the area in use, EMPTY with NOTHING_SAVED
(R119, R120, R126). NOT_ACTIVE is judged before NO_ROOM, and the items of an EMPTY record are cleared, by the model's choice (log
entries 24 and 25). -/
def Obligations.DismountTakesMouldOff : Prop :=
  ∀ (k : CellNo) (notify : Bool) (tag : Half) (s : State), OrderRead s k →
    s.mould.state = .watching ∨ s.mould.state = .degraded ∨ s.mould.state = .suspended →
      ∃ t, exec (.dismount notify tag) s = .next t ∧ (t.mould.state = .dismounting ∨ t.mould.state = .empty)
        ∧ t.corr.events = [] ∧ t.tester = [] ∧ NoHit t ∧ (∀ c ∈ s.mould.used, (t.channel c).state = .off) ∧ EventsCut s t
        ∧ t.timer = s.timer ∧ t.lines = s.lines ∧ t.evid.stopLatch = s.evid.stopLatch ∧ OutsideKept s t
        ∧ (s.corr.events = [] → s.tester = [] → NoHit s → active s = true → queueRoom s = true →
            (mountingFits s = true →
              t.mould.state = .dismounting ∧ t.mould.order = .dismount (orderOf s k tag)
              ∧ t.mould.saveCount = s.mould.saveCount + 1 ∧ t.evid = s.evid
              ∧ t.xu.queue = s.xu.queue ++
                  [{ base := baseOf s, seed := s.freeNext
                     body := .save (mountingContext s) (contextCopy .dismount (s.mould.saveCount + 1) s) }])
            ∧ (mountingFits s = false →
                MouldLeft t ∧ t.mould.order = .none
                ∧ t.xu.queue[s.xu.queue.length]? = some (resultJob s k notify .nothingSaved)))

/-- A MOUNT in hand ends, and the mould is EMPTY with its tables discarded and every used channel OFF, at a DISMOUNT, which cancels it
(R118), and at MOUNT_TIMER_EXPIRY in CLAMP_WAIT, which answers it CLAMP_TIMEOUT (R115). The items of an EMPTY record are cleared
by the model's choice (log entry 25). -/
def Obligations.MountEndsWithoutMould : Prop :=
  ∀ (i : Instr) (s : State), s.mould.state = .mounting →
    ((∃ (k : CellNo) (notify : Bool) (tag : Half), OrderRead s k ∧ i = .dismount notify tag)
      ∨ (held s = false ∧ s.mould.phase = .clampWait ∧ s.mould.timer = some 0 ∧ i = .mountTimerExpiry)) →
      ∃ t, exec i s = .next t ∧ MouldLeft t ∧ t.mould.order = .none ∧ (∀ c ∈ s.mould.used, (t.channel c).state = .off)
        ∧ t.timer = s.timer ∧ t.lines = s.lines ∧ t.evid.stopLatch = s.evid.stopLatch ∧ OutsideKept s t
        ∧ (∀ (o : OrderRef) (head : Option OrderHead), i = .mountTimerExpiry → NoHit s → s.mould.order = .mount o →
            s.xu.cells[o.cell] = .inHand o.take head → active s = true → queueRoom s = true →
            t.xu.queue = s.xu.queue ++
              [{ base := baseOf s, seed := s.freeNext, body := .result o.cell o.take (notifyOf head) .clampTimeout }])

/-- MOUNT_FIXED_READ_DONE: a record whose extent fits has its description read issued; one that does not ends the MOUNT with
AREA_BOUNDS, the mould EMPTY (R111). The bytes read are an operand (log entry 8), and the items of an EMPTY record are cleared by
the model's choice (log entry 25). -/
def Obligations.FixedPartRead : Prop :=
  ∀ (bytes : List Byte) (f : FixedPart) (s : State), held s = false → s.mould.read = .fixed → bytes.length = 8 →
    f = { identity := w32 bytes 0, channelCount := u8 bytes 4, pathCount := u8 bytes 5, zoneCount := u8 bytes 6, settleCode := u8 bytes 7 } →
    (recordFits s.xu.geometry (s.mould.offset.getD 0) (recordExtent f.channelCount f.pathCount f.zoneCount) = true →
      exec (.mountFixedReadDone bytes) s = .next { s with mould := { s.mould with fixed := some f, read := .description } })
    ∧ (recordFits s.xu.geometry (s.mould.offset.getD 0) (recordExtent f.channelCount f.pathCount f.zoneCount) = false →
        ∃ t, exec (.mountFixedReadDone bytes) s = .next t ∧ MouldLeft t ∧ t.mould.order = .none
          ∧ t.timer = s.timer ∧ t.corr = s.corr ∧ t.tester = s.tester ∧ t.lines = s.lines ∧ t.evid.stopLatch = s.evid.stopLatch
          ∧ OutsideKept s t
          ∧ (∀ (o : OrderRef) (head : Option OrderHead), s.mould.order = .mount o → s.xu.cells[o.cell] = .inHand o.take head →
              active s = true → queueRoom s = true →
              t.xu.queue = s.xu.queue ++
                [{ base := baseOf s, seed := s.freeNext, body := .result o.cell o.take (notifyOf head) .areaBounds }]))

/-- The description of a MOUNT: a valid one sets the identity, the used channels, the settle code, their base thresholds and the two
tables, and goes on to the context, or, with FRESH, to CLAMP_WAIT; one that fails Table 35 ends the MOUNT, the mould EMPTY (R112
to R115). The bytes read are an operand (log entry 8), and the items of an EMPTY record are cleared by the model's choice (log
entry 25). -/
def Obligations.DescriptionPartRead : Prop :=
  ∀ (bytes : List Byte) (f : FixedPart) (d : Description) (s : State), held s = false → s.mould.read = .description →
    s.mould.fixed = some f → bytes.length = descriptionBytes f → d = parseDescription f bytes →
    (validate s.variant d = none →
      ∃ t, exec (.mountDescriptionReadDone bytes) s = .next t
        ∧ t.mould.identity = some f.identity ∧ t.mould.used = d.channels.map (fun c => channelOf c.chan)
        ∧ t.mould.settleCode = f.settleCode ∧ t.mould.cyclesWatched = 0 ∧ t.mould.saveCount = 0
        ∧ t.evid.tables = some { paths := d.paths.map buildPath, zones := d.zones.map buildZone }
        ∧ (∀ c ∈ d.channels, (t.channel (channelOf c.chan)).base = some c.threshold)
        ∧ (∀ c : ChannelNo, (∀ e ∈ d.channels, channelOf e.chan ≠ c) → t.channel c = s.channel c)
        ∧ (s.mould.fresh ≠ .flag → t.mould.read = .context ∧ t.mould.state = s.mould.state ∧ t.mould.phase = s.mould.phase
            ∧ t.xu = s.xu)
        ∧ (s.mould.fresh = .flag → t.mould.read = .none
            ∧ (clampLocked s = true → t.mould.phase = .settling ∧ t.mould.timer = none)
            ∧ (clampLocked s = false →
                t.mould.phase = .clampWait ∧ t.mould.timer = some (s.mould.mountTimeout * 10000000) ∧ t.xu = s.xu))
        ∧ t.timer = s.timer ∧ t.corr = s.corr ∧ t.tester = s.tester ∧ t.lines = s.lines ∧ t.evid.stopLatch = s.evid.stopLatch
        ∧ OutsideKept s t)
    ∧ (∀ item index : Nat, validate s.variant d = some (item, index) →
        ∃ t, exec (.mountDescriptionReadDone bytes) s = .next t ∧ MouldLeft t ∧ t.mould.order = .none
          ∧ t.timer = s.timer ∧ t.corr = s.corr ∧ t.tester = s.tester ∧ t.lines = s.lines ∧ t.evid.stopLatch = s.evid.stopLatch
          ∧ OutsideKept s t
          ∧ (∀ (o : OrderRef) (head : Option OrderHead), s.mould.order = .mount o → s.xu.cells[o.cell] = .inHand o.take head →
              active s = true → queueRoom s = true →
              t.xu.queue = s.xu.queue ++
                [{ base := baseOf s, seed := s.freeNext
                   body := .result o.cell o.take (notifyOf head) (.badDescription item index) }]))

/-- The context of a MOUNT: with the format tag 0x00020001 and the tables' counts it is loaded, the zones' evidence and the calibrated
velocities; otherwise it is ignored and the mount is fresh. Either way the mount enters CLAMP_WAIT, and goes on to SETTLING when
CLAMP is locked (R84, R114 to R116). The bytes read are an operand (log entry 8). -/
def Obligations.ContextPartRead : Prop :=
  ∀ (bytes : List Byte) (f : FixedPart) (c : ContextRead) (s : State), held s = false → s.mould.read = .context →
    s.mould.fixed = some f → bytes.length = contextBytes f.pathCount f.zoneCount → c = parseContext f.pathCount f.zoneCount bytes →
      ∃ t, exec (.mountContextReadDone bytes) s = .next t
        ∧ (c.formatTag = 0x00020001 → c.zoneCount = (zonesOf s).length → c.pathCount = (pathsOf s).length →
            zonesOf t = List.zipWith (fun z x => { z with
                score := x.score, verdict := x.verdict, run := x.run, lastActive := x.lastActive, lifetime := x.lifetime })
              (zonesOf s) c.zones
            ∧ pathsOf t = List.zipWith (fun p v =>
                if 100 ≤ v.getD 0 ∧ v.getD 0 ≤ 1000 then
                  { p with velocity := v.getD 0, calibrated := true, window := pathWindow p.length (v.getD 0) p.margin }
                else p) (pathsOf s) c.velocities
            ∧ t.mould.cyclesWatched = c.cyclesWatched ∧ t.mould.saveCount = c.saveCount ∧ t.mould.fresh = s.mould.fresh)
        ∧ (c.formatTag ≠ 0x00020001 → t.mould.fresh = .format ∧ t.evid = s.evid ∧ t.mould.cyclesWatched = s.mould.cyclesWatched)
        ∧ (c.formatTag = 0x00020001 → c.zoneCount ≠ (zonesOf s).length ∨ c.pathCount ≠ (pathsOf s).length →
            t.mould.fresh = .counts ∧ t.evid = s.evid ∧ t.mould.cyclesWatched = s.mould.cyclesWatched)
        ∧ t.mould.read = .none
        ∧ (clampLocked s = true → t.mould.phase = .settling ∧ t.mould.timer = none)
        ∧ (clampLocked s = false → t.mould.phase = .clampWait ∧ t.mould.timer = some (s.mould.mountTimeout * 10000000)
            ∧ t.front = s.front ∧ t.xu = s.xu)
        ∧ t.timer = s.timer ∧ t.corr = s.corr ∧ t.tester = s.tester ∧ t.lines = s.lines ∧ t.evid.stopLatch = s.evid.stopLatch
        ∧ OutsideKept s t

/-- CLAMP locking asks every used channel for bias in CLAMP_WAIT and in SUSPENDED; CLAMP unlocking suspends a watched mould, with every
event closed CUT, its tests aborted and its bias off, and takes the bias off in SETTLING and SUSPENDED; in EMPTY and DISMOUNTING the edge
has no effect (R115, R116, R121, R122). -/
def Obligations.ClampLocksAndUnlocks : Prop :=
  ∀ s : State, held s = false → EdgeDue s .clamp →
    (s.lines.clamp.raw = true → (s.mould.state = .mounting ∧ s.mould.phase = .clampWait) ∨ s.mould.state = .suspended →
      ∃ t, exec (.lineFilterExpiry .clamp) s = .next t
        ∧ (s.mould.state = .mounting → t.mould = { s.mould with phase := .settling, timer := none } ∧ t.xu = s.xu)
        ∧ (s.mould.state = .suspended → t.mould = s.mould)
        ∧ (∀ c ∈ s.mould.used, (s.channel c).state = .off ∨ (s.channel c).state = .fault →
            t.channel c = { s.channel c with state := .settling, settle := some (settleTicks s.mould.settleCode) })
        ∧ (∀ c : ChannelNo, c ∉ s.mould.used ∨ ((s.channel c).state ≠ .off ∧ (s.channel c).state ≠ .fault) →
            t.channel c = s.channel c)
        ∧ t.timer = s.timer ∧ t.corr = s.corr ∧ t.evid = s.evid ∧ t.tester = s.tester ∧ t.lines = (filteredTo .clamp s).lines
        ∧ OutsideKept s t)
    ∧ (s.lines.clamp.raw = false → s.mould.state = .watching ∨ s.mould.state = .degraded →
        ∃ t, exec (.lineFilterExpiry .clamp) s = .next t ∧ t.mould.state = .suspended ∧ t.corr.events = [] ∧ t.tester = [] ∧ NoHit t
          ∧ EventsCut s t
          ∧ (∀ c ∈ s.mould.used, (t.channel c).state = .off) ∧ t.xu.accruals.flags &&& flagBit 3 = flagBit 3
          ∧ t.timer = s.timer ∧ t.evid.stopLatch = s.evid.stopLatch ∧ OutsideKept s t)
    ∧ (s.lines.clamp.raw = false → (s.mould.state = .mounting ∧ s.mould.phase = .settling) ∨ s.mould.state = .suspended →
        ∃ t, exec (.lineFilterExpiry .clamp) s = .next t ∧ t.mould.state = s.mould.state
          ∧ (s.mould.state = .mounting → t.mould.phase = .clampWait ∧ t.mould.timer = some (s.mould.mountTimeout * 10000000))
          ∧ (s.mould.state = .suspended → t.xu.accruals.flags &&& flagBit 3 = flagBit 3)
          ∧ (∀ c ∈ s.mould.used, (t.channel c).state = .off)
          ∧ t.timer = s.timer ∧ t.evid.stopLatch = s.evid.stopLatch ∧ OutsideKept s t)
    ∧ (s.mould.state = .empty ∨ s.mould.state = .dismounting → exec (.lineFilterExpiry .clamp) s = .next (filteredTo .clamp s))

/-- MPRES falling under a mould closes every event CUT, aborts the tests, takes the bias off every used channel and marks MOULD_PULLED.
A MOUNT in hand is over and the mould is EMPTY; a mounted mould is EMPTY once its UNPLANNED save is given up, outside ACTIVE or where
its record does not fit. With nothing to cut or abort, the MOULD_PULLED record, with the open cycle's number and the tick, comes
first where there is room. Behind it a MOUNT is answered CANCELLED: on a full queue the result waits in the cell's entry, and outside
ACTIVE it is discarded with the entry FREE. A mounted mould, while ACTIVE and with its record in place, has its UNPLANNED save created
there and is EMPTY; without room the save waits in DISMOUNTING. MPRES rising, and falling with no mould or one already leaving, has no
effect (R121, R123, R126, R160, R171). NOT_ACTIVE is judged before NO_ROOM, and the items of an EMPTY record are cleared, by the
model's choice (log entries 24 and 25). -/
def Obligations.MouldPulledLeaves : Prop :=
  ∀ s : State, held s = false → EdgeDue s .mpres →
    (s.lines.mpres.raw = true ∨ s.mould.state = .empty ∨ s.mould.state = .dismounting →
      exec (.lineFilterExpiry .mpres) s = .next (filteredTo .mpres s))
    ∧ (s.lines.mpres.raw = false → s.mould.state ≠ .empty → s.mould.state ≠ .dismounting →
      ∃ t, exec (.lineFilterExpiry .mpres) s = .next t ∧ t.corr.events = [] ∧ t.tester = [] ∧ NoHit t
        ∧ (∀ c ∈ s.mould.used, (t.channel c).state = .off) ∧ t.xu.accruals.flags &&& flagBit 4 = flagBit 4 ∧ EventsCut s t
        ∧ (∀ record : List Job, s.corr.events = [] → s.tester = [] → NoHit s → PulledRecord s record →
            (record ≠ [] → t.xu.nextJournal = s.xu.nextJournal.map (· + 1)) ∧ (s.xu.queue ++ record) <+: t.xu.queue
            ∧ (∀ (o : OrderRef) (head : Option OrderHead), s.mould.state = .mounting → s.mould.order = .mount o →
                s.xu.cells[o.cell] = .inHand o.take head →
                (active s = true → s.xu.queue.length + record.length < 16 →
                  t.xu.queue = s.xu.queue ++ record ++ [jobOf s record.length (.result o.cell o.take (notifyOf head) .cancelled)]
                  ∧ t.xu.cells[o.cell] = .inHand o.take head)
                ∧ (active s = true → 16 ≤ s.xu.queue.length + record.length →
                    t.xu.queue = s.xu.queue ++ record ∧ t.xu.cells[o.cell] = .resultWaiting o.take head .cancelled)
                ∧ (active s = false → t.xu.queue = s.xu.queue ∧ t.xu.cells[o.cell] = .free))
            ∧ (s.mould.state ≠ .mounting → active s = true → mountingFits s = true →
                (s.xu.queue.length + record.length < 16 →
                  MouldLeft t
                  ∧ t.xu.queue[s.xu.queue.length + record.length]? =
                      some (jobOf s record.length (.save (mountingContext s) (contextCopy .unplanned (s.mould.saveCount + 1) s))))
                ∧ (16 ≤ s.xu.queue.length + record.length →
                    t.mould.state = .dismounting ∧ t.mould.pendingSave = some .unplanned ∧ t.evid = s.evid
                    ∧ t.xu.queue = s.xu.queue ++ record)))
        ∧ (s.mould.state = .mounting → t.mould.order = .none)
        ∧ (s.mould.state = .mounting ∨ active s = false ∨ mountingFits s = false → MouldLeft t)
        ∧ (s.mould.state ≠ .mounting → MouldLeft t ∨ (t.mould.state = .dismounting ∧ t.mould.pendingSave = some .unplanned))
        ∧ t.timer = s.timer ∧ t.evid.stopLatch = s.evid.stopLatch ∧ OutsideKept s t)

/-! ## The coupling tester (R131 to R147) -/

/-- TEST_SENSOR accepted: the test joins the back of the queue with its partner list. A test that joins an empty queue on a STOPPED
press, with its source and a partner LIVE, pulses its source at once and listens: each LIVE partner is routed until its path window
has passed since the pulse, and the attempt ends with the last of them (R132 to R137). The pulse is held as a drive of 10 ticks, the
1 µs of R180 (log entry 30). -/
def Obligations.TestJoinsQueue : Prop :=
  ∀ (k : CellNo) (notify apply : Bool) (tag : Half) (c : ChannelNo) (amplitude level attempts delay : Nat) (x : Test) (s : State),
    OrderRead s k → s.variant = .omplar1640 → watching s = true → c ∈ s.mould.used → amplitude ≤ 100 → level ≤ 7 → 1 ≤ attempts →
    attempts ≤ 15 → delay ≤ 255 → (∃ p ∈ pathsOf s, p.endA = c ∨ p.endB = c) → s.tester.length < 8 →
    x = { order := orderOf s k tag, source := c, required := amplitude, level := level, allowed := attempts, used := 0, delay := delay
          apply := apply, state := .waiting, partners := partnersOf (pathsOf s) c, rest := none, lastLevel := level, attempt := none } →
    (s.tester ≠ [] ∨ s.timer.press = .running →
      (s.channel c).state ≠ .fault ∨ s.tester ≠ [] →
        ∃ t, exec (.testSensor notify tag c.val amplitude level attempts delay apply) s = .next t ∧ t.tester = s.tester ++ [x]
          ∧ t.xu.cells[k] = .inHand s.xu.takeNumber (some { kind := 3, notify := notify, tag := tag }) ∧ t.xu.queue = s.xu.queue
          ∧ { t with xu := s.xu, tester := s.tester } = s)
    ∧ (s.tester = [] → s.timer.press = .stopped → (s.channel c).state = .live →
        (∃ p ∈ x.partners, (s.channel p.chan).state = .live) →
          ∃ t y a, exec (.testSensor notify tag c.val amplitude level attempts delay apply) s = .next t ∧ t.tester = [y]
            ∧ y.order = x.order ∧ y.source = c ∧ y.level = level ∧ y.used = 0 ∧ y.state = .listening ∧ y.attempt = some a
            ∧ AttemptRouted s t a y.partners
            ∧ y.partners.map (fun p => (p.chan, p.path, p.routed)) = x.partners.map (fun p => (p.chan, p.path, live s p.chan))
            ∧ (t.channel c).state = .pulsing ∧ (t.channel c).drive = some { level := level, left := 10 }
            ∧ (t.channel c).detector = .idle ∧ (t.channel c).hit = none
            ∧ t.timer = s.timer ∧ t.lines = s.lines ∧ t.evid.stopLatch = s.evid.stopLatch ∧ OutsideKept s t)

/-- ATTEMPT_END_TICK releases the source: LIVE again, ARMED and without drive. A routed partner's open hit is waited for; otherwise
the attempt is counted, and the head rests 10 ms at the next level while a LIVE partner has no outcome and attempts are left, or
the test is over, OK (R137, R139, R140). A test that is over with its apply flag set replaces the velocity of each path whose
partner's calibration is CAL_OK, and no other (R140, R146). The release comes before the judgement by the model's choice (log entry
28). -/
def Obligations.AttemptEnds : Prop :=
  ∀ (x : Test) (xs : List Test) (a : Attempt) (s : State), held s = false → s.tester = x :: xs → x.state = .listening →
    x.attempt = some a → diff32 a.endTick a.pulseTick ≤ diff32 s.timer.clock a.pulseTick → (s.channel x.source).state = .pulsing →
      ((∃ p ∈ x.partners, p.routed = true ∧ p.hitOpen = true) →
        ∃ t, exec .attemptEndTick s = .next t ∧ t.tester = { x with state := .draining } :: xs
          ∧ (t.channel x.source).state = .live ∧ (t.channel x.source).detector = .armed ∧ (t.channel x.source).drive = none
          ∧ t.timer = s.timer ∧ t.corr = s.corr ∧ t.evid = s.evid ∧ t.lines = s.lines ∧ OutsideKept s t)
      ∧ (¬ (∃ p ∈ x.partners, p.routed = true ∧ p.hitOpen = true) →
          (∃ p ∈ x.partners.map (judgedPartner (x.used + 1)),
            p.outcome = none ∧ (live s p.chan = true ∨ p.chan = x.source)) ∧ x.used + 1 ≠ x.allowed →
          ∃ t, exec .attemptEndTick s = .next t
            ∧ t.tester = { x with
                used := x.used + 1, lastLevel := x.level, level := min 7 (x.level + 1), state := .resting, rest := some 100000
                attempt := none, partners := x.partners.map (judgedPartner (x.used + 1)) } :: xs
            ∧ (t.channel x.source).state = .live ∧ (t.channel x.source).detector = .armed ∧ (t.channel x.source).drive = none
            ∧ t.timer = s.timer ∧ t.corr = s.corr ∧ t.evid = s.evid ∧ t.lines = s.lines ∧ OutsideKept s t)
      ∧ (¬ (∃ p ∈ x.partners, p.routed = true ∧ p.hitOpen = true) →
          ¬ ((∃ p ∈ x.partners.map (judgedPartner (x.used + 1)),
            p.outcome = none ∧ (live s p.chan = true ∨ p.chan = x.source)) ∧ x.used + 1 ≠ x.allowed) → xs = [] →
          ∃ t, exec .attemptEndTick s = .next t ∧ t.tester = []
            ∧ (t.channel x.source).state = .live ∧ (t.channel x.source).detector = .armed ∧ (t.channel x.source).drive = none
            ∧ t.xu.accruals.flags &&& flagBit 8 = flagBit 8 ∧ zonesOf t = zonesOf s
            ∧ (x.apply = false → pathsOf t = pathsOf s)
            ∧ (x.apply = true → (x.partners.map (·.path)).Nodup → ∀ (i : Nat) (q : PathEntry), (pathsOf s)[i]? = some q →
                (∀ p ∈ x.partners.map (judgedPartner (x.used + 1)), ∀ (h : Heard) (v : Nat), p.path = i → p.heard = some h →
                  h.calibration = .ok → h.velocity = some v →
                    (pathsOf t)[i]? = some { q with velocity := v, calibrated := true, window := pathWindow q.length v q.margin })
                ∧ ((∀ p ∈ x.partners.map (judgedPartner (x.used + 1)), ∀ h : Heard, p.path = i → p.heard = some h →
                      h.calibration = .ok → h.velocity = none) →
                    (pathsOf t)[i]? = some q))
            ∧ (∀ head : Option OrderHead, s.xu.cells[x.order.cell] = .inHand x.order.take head → active s = true →
                queueRoom s = true → watching s = true →
                t.xu.queue = s.xu.queue ++
                  [{ base := baseOf s, seed := s.freeNext
                     body := .result x.order.cell x.order.take (notifyOf head)
                       (testResult .ok { x with
                         used := x.used + 1, lastLevel := x.level, attempt := none
                         partners := x.partners.map (judgedPartner (x.used + 1)) }) }])
            ∧ t.timer = s.timer ∧ t.corr = s.corr ∧ t.lines = s.lines ∧ t.evid.stopLatch = s.evid.stopLatch ∧ OutsideKept s t)

/-- REST_EXPIRY puts the head back in WAITING. On a RUNNING press it waits there; on a STOPPED one, under a watched mould, with its
source and a partner that is not SKIPPED LIVE, the next attempt is pulsed at once, at the level reached, and listens to each such
partner until its path window has passed since the pulse (R135 to R137, R139). The pulse is held as a drive of 10 ticks, the 1 µs of
R180 (log entry 30). -/
def Obligations.RestEnds : Prop :=
  ∀ (x : Test) (xs : List Test) (s : State), held s = false → s.tester = x :: xs → x.state = .resting → x.rest = some 0 →
    (s.timer.press = .running → (s.channel x.source).state ≠ .fault →
      exec .restExpiry s = .next { s with tester := { x with state := .waiting, rest := none } :: xs })
    ∧ (s.timer.press = .stopped → watching s = true → (s.channel x.source).state = .live → 0 < x.used →
        (∃ p ∈ x.partners, p.outcome ≠ some .skipped ∧ (s.channel p.chan).state = .live) →
          ∃ t y a, exec .restExpiry s = .next t ∧ t.tester = y :: xs ∧ y.state = .listening ∧ y.attempt = some a
            ∧ ((x.partners.map (·.chan)).Nodup → AttemptRouted s t a y.partners)
            ∧ y.partners.map (fun p => (p.chan, p.path, p.routed)) =
                x.partners.map (fun p => (p.chan, p.path, decide (p.outcome ≠ some .skipped) && live s p.chan))
            ∧ a.pulseTick = s.timer.clock ∧ y.used = x.used ∧ y.level = x.level ∧ y.rest = none
            ∧ (t.channel x.source).state = .pulsing ∧ (t.channel x.source).drive = some { level := x.level, left := 10 }
            ∧ t.timer = s.timer ∧ t.lines = s.lines ∧ t.evid.stopLatch = s.evid.stopLatch ∧ OutsideKept s t)

/-- The calibration of R145: a transit that does not exceed the pulser delay is CAL_INVALID; otherwise the velocity is the length in µm
over the corrected transit, rounded, and CAL_OK from 100 to 1000. -/
def Obligations.CalibrationRule : Prop :=
  ∀ transit L delay : Nat,
    (transit ≤ delay → calibrate transit L delay = (.invalid, none))
    ∧ (delay < transit →
        ∃ v : Nat, calibrate transit L delay = (if 100 ≤ v ∧ v ≤ 1000 then .ok else .range, some v)
          ∧ v * (transit - delay) ≤ L * 1000 + (transit - delay) / 2
          ∧ L * 1000 + (transit - delay) / 2 < (v + 1) * (transit - delay))

/-! ## The exchange unit (R148 to R175) -/

/-- Writes of the registers: XBASE_L and XBASE_H are set while EN is 0, the low 12 bits forced to 0, and ignored while it is 1; XCTL
acts only where it changes EN, as ENABLE and DISABLE do; XLOOK acts as LOOK does; XSTAT and XIDENT are ignored. That these writes
act as the three other commands is the model's choice (log entry 29). -/
def Obligations.RegisterWrites : Prop :=
  ∀ (v : Word) (s : State), held s = false →
    (s.xu.en = false →
      (∃ b, exec (.registerWrite .xbaseL v) s = .next { s with xu := { s.xu with baseL := b } }
        ∧ b.toNat = v.toNat / 4096 * 4096)
      ∧ exec (.registerWrite .xbaseH v) s = .next { s with xu := { s.xu with baseH := v } })
    ∧ (s.xu.en = true →
        exec (.registerWrite .xbaseL v) s = .next s ∧ exec (.registerWrite .xbaseH v) s = .next s)
    ∧ (v.toNat % 2 = 1 → exec (.registerWrite .xctl v) s = exec .enable s)
    ∧ (v.toNat % 2 = 0 → exec (.registerWrite .xctl v) s = exec .disable s)
    ∧ exec (.registerWrite .xlook v) s = exec .look s
    ∧ exec (.registerWrite .xstat v) s = .next s ∧ exec (.registerWrite .xident v) s = .next s

/-- ENABLE sets EN, clears the check code and waits; ENABLE_HEADER_READ_START issues the header read once no job from the last disable
is in issue, and no operation of an abandoned enable is on the bus (log entry 16). -/
def Obligations.EnableStarts : Prop :=
  ∀ s : State, held s = false →
    (s.xu.en = false → exec .enable s = .next { s with xu := { s.xu with en := true, checkCode := 0, enabling := .waiting } })
    ∧ (s.xu.en = true → exec .enable s = .next s)
    ∧ (s.xu.enabling = .waiting → s.xu.issue = none → s.xu.strayEnable = .none →
        exec .enableHeaderReadStart s = .next { s with xu := { s.xu with enabling := .headerRead } })
    ∧ (s.xu.issue ≠ none → exec .enableHeaderReadStart s = .next s)

/-- ENABLE_HEADER_READ_DONE: a header that passes Table 47 fixes the geometry and the sequences, and the capability page is written at
offset 0x1C00; one that fails leaves HEADER_INVALID with the check's code. CAPABILITY_WRITE_DONE: the page lands, the area is ACTIVE
and an idle scan unit starts a LOOK scan (R150). -/
def Obligations.EnableCompletes : Prop :=
  ∀ s : State, held s = false →
    (∀ bytes : List Byte, s.xu.enabling = .headerRead → bytes.length = 44 → headerCode bytes = 0 →
      exec (.enableHeaderReadDone bytes) s =
        .next { s with xu := { s.xu with
          geometry := { areaSize := u32 bytes 4, journalOffset := u32 bytes 8, journalSize := u32 bytes 12, listOffset := u32 bytes 16
                        listSize := u32 bytes 20 }
          nextJournal := some (w32 bytes 24), nextLocated := some (w32 bytes 28)
          consumedJournal := some (w32 bytes 32), consumedLocated := some (w32 bytes 36)
          lastTaken := none, lastNoticed := none
          enabling := .capabilityWrite ⟨addrAt (baseOf s) 0x1C00, capabilityBytes s.variant⟩ } })
    ∧ (∀ bytes : List Byte, s.xu.enabling = .headerRead → bytes.length = 44 → headerCode bytes ≠ 0 →
        ∃ t, exec (.enableHeaderReadDone bytes) s = .next t ∧ t.xu.area = .headerInvalid ∧ t.xu.checkCode = headerCode bytes
          ∧ t.xu.enabling = .none ∧ t.xu.en = s.xu.en ∧ t.timer = s.timer ∧ t.lines = s.lines
          ∧ t.evid.stopLatch = s.evid.stopLatch ∧ OutsideKept s t)
    ∧ (∀ w : BusWrite, s.xu.enabling = .capabilityWrite w → w.bytes.length ≤ 2 ^ 64 →
        ∃ t, exec .capabilityWriteDone s = .next t ∧ t.xu.area = .active ∧ t.xu.enabling = .none ∧ Lands w s t
          ∧ (s.xu.scan.phase = .idle → t.xu.scan.phase = .header ∧ t.xu.scan.kind = .look)
          ∧ t.timer = s.timer ∧ t.lines = s.lines ∧ t.evid.stopLatch = s.evid.stopLatch
          ∧ t.board = s.board ∧ t.variant = s.variant ∧ t.pending = s.pending)

/-- DISABLE: the area is UNCONFIGURED, the cells are FREE, the carry record and the sequences are gone, ATTN# is released, a scan is
abandoned, and of the queue only the job in issue is left. A MOUNT in phase READING is cancelled, and a mould whose DISMOUNT save is
discarded with the queue, or whose DISMOUNT or UNPLANNED save is pending, leaves: each time the mould is EMPTY. In any other case the
mould, the zones and the channels are untouched, and the stop latch and the cycle always are. An enable in progress is abandoned
instead, with the sequences its header gave (R151, R127, R175, R105, R20). What becomes of a scan or an enable on the bus is the
model's choice (log entries 15 and 16), and so are the items that a leaving mould clears beyond R120 (log entry 25). -/
def Obligations.DisableClears : Prop :=
  ∀ s : State, held s = false →
    (s.xu.en = false → exec .disable s = .next s)
    ∧ (s.xu.en = true → s.xu.enabling = .none →
        ∃ t, exec .disable s = .next t ∧ t.xu.en = false ∧ t.xu.area = .unconfigured ∧ t.xu.attn = false ∧ t.xu.carry = none
          ∧ t.xu.nextJournal = none ∧ t.xu.nextLocated = none ∧ t.xu.consumedJournal = none ∧ t.xu.consumedLocated = none
          ∧ (∀ k : CellNo, t.xu.cells[k] = .free)
          ∧ t.xu.queue = (if s.xu.issue = none then [] else s.xu.queue.take 1) ∧ t.xu.scan.mark = none
          ∧ t.xu.scan.abandoned = decide (s.xu.scan.phase ≠ .idle) ∧ t.xu.accruals = s.xu.accruals
          ∧ ((s.mould.state = .mounting ∧ s.mould.phase = .reading) ∨ s.mould.pendingSave = some .dismount
                ∨ s.mould.pendingSave = some .unplanned ∨ DismountSaveWaits s → MouldLeft t)
          ∧ (¬ (s.mould.state = .mounting ∧ s.mould.phase = .reading) → s.mould.pendingSave ≠ some .dismount →
              s.mould.pendingSave ≠ some .unplanned → ¬ DismountSaveWaits s →
              t.evid = s.evid ∧ t.mould = s.mould ∧ t.front = s.front)
          ∧ t.timer = s.timer ∧ t.corr = s.corr ∧ t.tester = s.tester ∧ t.lines = s.lines ∧ t.evid.stopLatch = s.evid.stopLatch
          ∧ OutsideKept s t)
    ∧ (s.xu.en = true → s.xu.enabling ≠ .none →
        ∃ t, exec .disable s = .next t ∧ t.xu.en = false ∧ t.xu.enabling = .none ∧ t.xu.area = s.xu.area ∧ t.xu.queue = s.xu.queue
          ∧ t.xu.nextJournal = none ∧ t.xu.nextLocated = none ∧ t.xu.consumedJournal = none ∧ t.xu.consumedLocated = none
          ∧ { t with xu := s.xu } = s)

/-- LOOK while ACTIVE starts a scan on an idle unit and sets the rescan mark on a scanning one, CLOSE being kept over LOOK; in any
other area state it has no effect. SCAN_HEADER_READ_DONE takes the consumed sequences and the generation, judges ATTN# afresh, and
goes on to the programme page when the programme is due, else to the board (R153, R155, R156). The bytes read are an operand (log
entry 8). -/
def Obligations.ScanStarts : Prop :=
  ∀ s : State, held s = false →
    (active s = true → s.xu.scan.phase = .idle →
      exec .look s = .next { s with xu := { s.xu with scan := { s.xu.scan with
        phase := .header, kind := .look, abandoned := false, mark := none, base := baseOf s } } })
    ∧ (active s = true → s.xu.scan.phase ≠ .idle →
        exec .look s = .next { s with xu := { s.xu with scan := { s.xu.scan with
          mark := if s.xu.scan.mark = some .close then some .close else some .look } } })
    ∧ (active s = false → exec .look s = .next s)
    ∧ (∀ bytes : List Byte, s.xu.scan.phase = .header → s.xu.scan.abandoned = false → bytes.length = 12 →
        ∃ t, exec (.scanHeaderReadDone bytes) s = .next t
          ∧ t.xu.consumedJournal = some (w32 bytes 0) ∧ t.xu.consumedLocated = some (w32 bytes 4)
          ∧ t.xu.scan.generation = w32 bytes 8 ∧ t.xu.attn = attnLevel { s.xu with consumedJournal := some (w32 bytes 0) }
          ∧ t.xu.scan.phase =
              (if s.xu.lastTaken ≠ some (w32 bytes 8) ∧ (s.xu.scan.kind = .close ∨ s.timer.press = .stopped) then .programme else .board)
          ∧ t.xu.queue = s.xu.queue ∧ t.xu.cells = s.xu.cells ∧ { t with xu := s.xu } = s)

/-- PROGRAMME_READ_DONE: every group of Table 48 in range takes the value read and a held group keeps its own; the whole is delivered
at one instant, the timing part at once on a STOPPED press and as the pending part on a RUNNING one; the take is marked in the
record and echoed, with the number of groups held, the first of them and the effective programme that follows. ECHO_WRITE_DONE: the
echo lands and the board is read (R18, R19, R156, R157). The bytes read are an operand (log entry 8); memory holds only what the part
has written (log entry 7), and the bytes the layout leaves out are free (log entry 9). -/
def Obligations.ProgrammeTaken : Prop :=
  ∀ s : State, held s = false → s.xu.scan.abandoned = false →
    (∀ bytes : List Byte, s.xu.scan.phase = .programme → bytes.length = 172 →
      ∃ t p, exec (.programmeReadDone bytes) s = .next t
        ∧ p.cycEdge =
            (if u8 bytes 0 = 1 then .rising else if u8 bytes 0 = 2 then .falling else if u8 bytes 0 = 3 then .both
             else (s.timer.pendingPart.getD s.timer.installed).cycEdge)
        ∧ (∀ (q : PhaseLine) (i : Nat), (q, i) ∈ [(PhaseLine.feed, 1), (.vib, 2), (.tamp, 3), (.strip, 4)] →
            p.phaseEdge.at q =
              (if u8 bytes i = 0 then .none else if u8 bytes i = 1 then .rising else if u8 bytes i = 2 then .falling
               else if u8 bytes i = 3 then .both else (s.timer.pendingPart.getD s.timer.installed).phaseEdge.at q))
        ∧ p.stallLimit =
            (if 1000 ≤ u32 bytes 8 ∧ u32 bytes 8 ≤ 400000 then u32 bytes 8 else (s.timer.pendingPart.getD s.timer.installed).stallLimit)
        ∧ (∀ (w : WindowNo) (o : Nat), o = 0x10 + 16 * w.val →
            p.windows[w] =
              (if u8 bytes o ≤ 5 ∧ u8 bytes (o + 1) ≤ 15 ∧ u8 bytes (o + 2) ≤ 40 ∧ u32 bytes (o + 4) < 2 ^ 31
                  ∧ 1 ≤ u32 bytes (o + 8) ∧ u32 bytes (o + 8) ≤ 2 ^ 31 then
                { anchor :=
                    if u8 bytes o = 0 then .none else if u8 bytes o = 1 then .cyc else if u8 bytes o = 2 then .phase .feed
                    else if u8 bytes o = 3 then .phase .vib else if u8 bytes o = 4 then .phase .tamp else .phase .strip
                  weight := u8 bytes (o + 1), raise := u8 bytes (o + 2), offset := u32 bytes (o + 4), length := u32 bytes (o + 8) }
               else (s.timer.pendingPart.getD s.timer.installed).windows[w]))
        ∧ t.front.hitDef =
            { hdt := if 10 ≤ u16 bytes 0x90 ∧ u16 bytes 0x90 ≤ 1000 then u16 bytes 0x90 else s.front.hitDef.hdt
              hlt := if u16 bytes 0x92 ≤ 10000 then u16 bytes 0x92 else s.front.hitDef.hlt
              maxDuration := if 100 ≤ u16 bytes 0x94 then u16 bytes 0x94 else s.front.hitDef.maxDuration
              minCounts := if 1 ≤ u8 bytes 0x96 then u8 bytes 0x96 else s.front.hitDef.minCounts }
        ∧ t.evid.part.decay = (if u8 bytes 0x97 ≤ 15 then u8 bytes 0x97 else s.evid.part.decay)
        ∧ (if 1 ≤ u16 bytes 0x98 ∧ u16 bytes 0x98 < u16 bytes 0x9A ∧ u16 bytes 0x9A < u16 bytes 0x9C ∧ u16 bytes 0x9E < u16 bytes 0x98 then
            t.evid.part.tWatch = u16 bytes 0x98 ∧ t.evid.part.tSuspect = u16 bytes 0x9A ∧ t.evid.part.tCrack = u16 bytes 0x9C
              ∧ t.evid.part.hysteresis = u16 bytes 0x9E
          else
            t.evid.part.tWatch = s.evid.part.tWatch ∧ t.evid.part.tSuspect = s.evid.part.tSuspect
              ∧ t.evid.part.tCrack = s.evid.part.tCrack ∧ t.evid.part.hysteresis = s.evid.part.hysteresis)
        ∧ t.evid.part.suspectRun = (if u8 bytes 0xA0 ≠ 1 then u8 bytes 0xA0 else s.evid.part.suspectRun)
        ∧ t.evid.part.stopOnCrack = (if u8 bytes 0xA1 ≤ 1 then decide (u8 bytes 0xA1 = 1) else s.evid.part.stopOnCrack)
        ∧ t.mould = { s.mould with
            mountTimeout := if 1 ≤ u8 bytes 0xA2 then u8 bytes 0xA2 else s.mould.mountTimeout, checkpointInterval := u16 bytes 0xA8 }
        ∧ t.xu.noticeMask = (if u16 bytes 0xAA < 2048 then BitVec.ofNat 16 (u16 bytes 0xAA) else s.xu.noticeMask)
        ∧ t.xu.listSelection = (if u8 bytes 0xA3 ≤ 3 ∧ u8 bytes 0xA4 ≤ 3 then u8 bytes 0xA3 else s.xu.listSelection)
        ∧ t.xu.listLevel = (if u8 bytes 0xA3 ≤ 3 ∧ u8 bytes 0xA4 ≤ 3 then u8 bytes 0xA4 else s.xu.listLevel)
        ∧ (s.timer.press = .running → t.timer = { s.timer with pendingPart := some p })
        ∧ (s.timer.press = .stopped →
            t.timer.installed = p ∧ t.timer.pendingPart = none
            ∧ (∀ w : WindowNo, s.timer.windows[w].state = .pending ∨ s.timer.windows[w].state = .open ∨ s.timer.windows[w].state = .spent →
                t.timer.windows[w] = s.timer.windows[w])
            ∧ (∀ w : WindowNo, s.timer.windows[w].state = .disabled ∨ s.timer.windows[w].state = .waiting →
                t.timer.windows[w].defn = t.timer.installed.windows[w]
                ∧ t.timer.windows[w].state =
                    if t.timer.installed.windows[w].anchor = .none then .disabled
                    else if (anchorCapture s.timer t.timer.installed.windows[w].anchor).isSome = true then .spent else .waiting))
        ∧ t.xu.lastTaken = some s.xu.scan.generation ∧ t.xu.accruals.flags &&& flagBit 6 = flagBit 6
        ∧ (0 < heldCount bytes → t.xu.accruals.flags &&& flagBit 7 = flagBit 7)
        ∧ (∃ w, t.xu.scan.phase = .echo w ∧ w.addr = addrAt s.xu.scan.base 0x1800
            ∧ w.bytes = bytesWord s.xu.scan.generation ++ [byteOf (heldCount bytes), byteOf (firstHeld bytes), 0, 0]
                ++ programmeBytes s.freeNext (effectiveProgramme t))
        ∧ t.front.channels = s.front.channels ∧ t.corr = s.corr ∧ t.evid.tables = s.evid.tables
        ∧ t.evid.stopLatch = s.evid.stopLatch ∧ t.tester = s.tester ∧ t.lines = s.lines ∧ OutsideKept s t)
    ∧ (∀ w : BusWrite, s.xu.scan.phase = .echo w → w.bytes.length ≤ 2 ^ 64 →
        ∃ t, exec .echoWriteDone s = .next t ∧ Lands w s t ∧ t.xu.scan.phase = .board
          ∧ { t with area := s.area, xu := { t.xu with scan := s.xu.scan } } = s)

/-- BOARD_READ_DONE: the first POSTED cell whose entry is FREE or ANSWERED is to be taken, and with none the scan ends; an ANSWERED
entry before it whose cell is EMPTY is FREE, and ATTN# is judged afresh (R166; log entry 22). CELL_TAKE_CAS_DONE: a cell found POSTED becomes TAKEN in memory, the take number
rises and the entry is IN_HAND; any other is left as it is (R158, R161). What a read or a compare-and-swap found is an operand
(log entry 8). -/
def Obligations.CellsTaken : Prop :=
  ∀ (k : CellNo) (s : State), held s = false → s.xu.scan.abandoned = false →
    (∀ bytes : List Byte, s.xu.scan.phase = .board → bytes.length = 32 → w32 bytes (4 * k.val) = wordPosted →
      s.xu.cells[k].takeable = true →
      (∀ j : CellNo, j < k → w32 bytes (4 * j.val) = wordPosted → s.xu.cells[j].takeable = false) →
        ∃ t, exec (.boardReadDone bytes) s = .next t ∧ t.xu.scan.phase = .take k
          ∧ (∀ j : CellNo, t.xu.cells[j] =
              if j < k ∧ w32 bytes (4 * j.val) = wordEmpty ∧ s.xu.cells[j] = .answered then .free else s.xu.cells[j])
          ∧ t.xu.attn = attnLevel { s.xu with cells := t.xu.cells } ∧ t.xu.queue = s.xu.queue ∧ { t with xu := s.xu } = s)
    ∧ (∀ bytes : List Byte, s.xu.scan.phase = .board → bytes.length = 32 → s.xu.scan.mark = none →
        (∀ j : CellNo, w32 bytes (4 * j.val) = wordPosted → s.xu.cells[j].takeable = false) →
          ∃ t, exec (.boardReadDone bytes) s = .next t ∧ t.xu.scan.phase = .idle
            ∧ (∀ j : CellNo, t.xu.cells[j] =
                if w32 bytes (4 * j.val) = wordEmpty ∧ s.xu.cells[j] = .answered then .free else s.xu.cells[j])
            ∧ t.xu.attn = attnLevel { s.xu with cells := t.xu.cells } ∧ t.xu.queue = s.xu.queue ∧ { t with xu := s.xu } = s)
    ∧ (s.xu.scan.phase = .take k →
        ∃ t, exec (.cellTakeCasDone wordPosted) s = .next t ∧ t.xu.scan.phase = .cellRead k
          ∧ t.xu.takeNumber = s.xu.takeNumber + 1 ∧ t.xu.cells[k] = .inHand (s.xu.takeNumber + 1) none
          ∧ (∀ j : CellNo, j ≠ k → t.xu.cells[j] = s.xu.cells[j])
          ∧ Lands ⟨addrAt s.xu.scan.base (0x100 + 64 * k.val), bytesWord wordTaken⟩ s t
          ∧ t.xu.queue = s.xu.queue ∧ { t with area := s.area, xu := s.xu } = s)
    ∧ (∀ found : Word, s.xu.scan.phase = .take k → found ≠ wordPosted →
        ∃ t, exec (.cellTakeCasDone found) s = .next t ∧ t.xu.takeNumber = s.xu.takeNumber
          ∧ t.xu.cells[k] = (if found = wordEmpty ∧ s.xu.cells[k] = .answered then .free else s.xu.cells[k])
          ∧ t.xu.attn = attnLevel { s.xu with cells := t.xu.cells } ∧ t.xu.scan.phase ≠ .cellRead k ∧ t.xu.queue = s.xu.queue ∧ { t with xu := s.xu } = s)

/-- JOB_WRITE_ACCEPTED lands the write of the job in issue; its next operation is issued, or, after the last write of a job that has
no compare-and-swap, the job leaves the queue. RESULT_STATE_CAS_DONE: a cell found TAKEN gets DONE or REFUSED, and its entry is
ANSWERED with notify and FREE without; any other word is left and the entry is FREE. The job leaves the queue (R160, R162, R165), and
in the room it leaves the first waiting result, in cell order, gets its job (R163; said with no order of the mould manager in hand).
What the compare-and-swap found is an operand (log entry 8), and a job is paused in AREA_FAULT by the model's choice (log entry
18). -/
def Obligations.JobsGoOn : Prop :=
  ∀ (j : Job) (js : List Job) (n : Nat) (s : State), held s = false → s.xu.queue = j :: js →
    s.xu.issue = some { accepted := n, onBus := true } →
    (∀ w : BusWrite, (jobWrites j)[n]? = some w → w.bytes.length ≤ 2 ^ 64 →
      ∃ t, exec .jobWriteAccepted s = .next t ∧ Lands w s t
        ∧ (n + 1 < (jobWrites j).length ∨ (∃ c k m r, j.body = .result c k m r) →
            t.xu.queue = s.xu.queue ∧ t.xu.issue = some { accepted := n + 1, onBus := decide (s.xu.area ≠ .areaFault) }
            ∧ { t with area := s.area, xu := { t.xu with issue := s.xu.issue } } = s)
        ∧ (n + 1 = (jobWrites j).length → (∀ c k m r, j.body ≠ .result c k m r) →
            (∃ added, t.xu.queue = js ++ added)
            ∧ (active s = true → js ≠ [] → t.xu.issue = some { accepted := 0, onBus := true })
            ∧ WaitingPlaced s js t)
        ∧ t.timer = s.timer ∧ t.corr = s.corr ∧ t.tester = s.tester ∧ t.lines = s.lines ∧ t.evid.stopLatch = s.evid.stopLatch
        ∧ t.board = s.board ∧ t.variant = s.variant ∧ t.pending = s.pending)
    ∧ (∀ (k : CellNo) (take : Word) (notify : Bool) (r : OrderResult) (head : Option OrderHead) (found : Word),
        j.body = .result k take notify r → n = 1 → s.xu.cells[k] = .inHand take head →
          ∃ t, exec (.resultStateCasDone found) s = .next t ∧ (∃ added, t.xu.queue = js ++ added)
            ∧ (found = wordTaken →
                t.xu.cells[k] = (if notify = true then .answered else .free)
                ∧ Lands ⟨addrAt j.base (0x100 + 64 * k.val), bytesWord (if 0x80 < r.code then wordRefused else wordDone)⟩ s t)
            ∧ (found ≠ wordTaken → t.xu.cells[k] = .free ∧ t.area = s.area) ∧ WaitingPlaced s js t
            ∧ t.timer = s.timer ∧ t.corr = s.corr ∧ t.tester = s.tester ∧ t.lines = s.lines ∧ t.evid.stopLatch = s.evid.stopLatch
            ∧ t.board = s.board ∧ t.variant = s.variant ∧ t.pending = s.pending)

/-- BUS_ERROR while ACTIVE makes the area AREA_FAULT, with code 8 for a failing read and 9 for a failing write or compare-and-swap,
releases ATTN#, ends the scan or the job that failed, frees the entries whose results wait, and cancels a MOUNT still reading. An
enable whose operation fails ends in AREA_FAULT too (R111, R152). What ends with the failing operation, beyond R152, is the model's
choice (log entries 15 to 18), and so are the items that a leaving mould clears beyond R120 (log entry 25), and that an error of a
unit with nothing on the bus, a command outside its condition, leaves the state as it stands (log entry 2). -/
def Obligations.BusErrorFaultsArea : Prop :=
  ∀ s : State, held s = false →
    (∀ u : BusUnit, s.xu.area = .active → s.xu.enabling = .none →
      ((u = .scan ∧ s.xu.scan.phase ≠ .idle) ∨ (u = .mount ∧ s.mould.read ≠ .none)
        ∨ (u = .job ∧ ∃ n, s.xu.issue = some { accepted := n, onBus := true })) →
        ∃ t, exec (.busError u) s = .next t ∧ t.xu.area = .areaFault ∧ t.xu.attn = false ∧ t.xu.en = s.xu.en
          ∧ (u = .job → t.xu.checkCode = 9 ∧ t.xu.queue = s.xu.queue.tail ∧ (s.xu.queue ≠ [] → t.xu.issue = none))
          ∧ (u = .mount → t.xu.checkCode = 8 ∧ t.mould.read = .none ∧ t.xu.queue = s.xu.queue)
          ∧ (u = .scan → t.xu.scan.phase = .idle ∧ t.xu.scan.mark = none ∧ t.xu.queue = s.xu.queue
              ∧ ((∃ w, s.xu.scan.phase = .echo w) ∨ (∃ k, s.xu.scan.phase = .take k) → t.xu.checkCode = 9)
              ∧ ((∀ w, s.xu.scan.phase ≠ .echo w) → (∀ k, s.xu.scan.phase ≠ .take k) → t.xu.checkCode = 8))
          ∧ (∀ (k : CellNo) (take : Word) (head : Option OrderHead) (r : OrderResult),
              s.xu.cells[k] = .resultWaiting take head r → t.xu.cells[k] = .free)
          ∧ (s.mould.state = .mounting → s.mould.phase = .reading → MouldLeft t)
          ∧ t.timer = s.timer ∧ t.corr = s.corr ∧ t.tester = s.tester ∧ t.lines = s.lines ∧ t.evid.stopLatch = s.evid.stopLatch
          ∧ OutsideKept s t)
    ∧ (s.xu.enabling = .headerRead ∨ (∃ w, s.xu.enabling = .capabilityWrite w) →
        ∃ t, exec (.busError .enable) s = .next t ∧ t.xu.area = .areaFault ∧ t.xu.enabling = .none ∧ t.xu.strayEnable = .none
          ∧ t.xu.checkCode = (if s.xu.enabling = .headerRead then 8 else 9) ∧ t.xu.attn = false ∧ t.timer = s.timer
          ∧ t.evid.stopLatch = s.evid.stopLatch ∧ OutsideKept s t)
    ∧ (s.xu.scan.phase = .idle → exec (.busError .scan) s = .next s)
    ∧ (s.xu.issue = none → exec (.busError .job) s = .next s)
    ∧ (s.mould.read = .none → s.mould.strayRead = false → exec (.busError .mount) s = .next s)

/-! ## Laws that every step keeps -/

/-- The bytes the part has put into line-computer memory stay in canonical form. This memory is the model's (log entry 7). -/
def Obligations.MemoryStaysCanonical : Prop :=
  ∀ s t : State, areaWf s.area = true → step s = .next t → areaWf t.area = true

/-- The law of R51: the open event list never holds more than 32 events, no event holds two member hits from the same channel, and so
an event never holds more members than the variant has channels. -/
def Obligations.EventListLaw : Prop :=
  ∀ s t : State, EventsOk s.corr.events → FittedOk s → step s = .next t →
    EventsOk t.corr.events ∧ FittedOk t ∧ ∀ e ∈ t.corr.events, e.members.length ≤ channelCount t.variant

/-- The law of R96: a zone's score always lies between 0 and 65535, and its run between 0 and 255. -/
def Obligations.ScoreAndRunLaw : Prop :=
  ∀ s t : State, ScoresOk s → step s = .next t → ScoresOk t

/-- The law of R144: at most one channel is PULSING, only while the press is STOPPED, and only during an attempt of the test at the head
of the test queue. -/
def Obligations.PulseLaw : Prop :=
  ∀ s t : State, PulseOk s → step s = .next t →
    PulseOk t ∧ ∀ c d : ChannelNo, (t.channel c).state = .pulsing → (t.channel d).state = .pulsing → c = d

/-- The bounds of R131 and R162: the test queue holds at most 8 tests, and the write-job queue at most 16 jobs. -/
def Obligations.QueueBounds : Prop :=
  ∀ s t : State, QueueOk s → TestsOk s → step s = .next t → QueueOk t ∧ TestsOk t

/-- ACTIVE goes with EN set and no enable in progress, an enable in progress with EN set, and ATTN# is asserted only while ACTIVE
(R149 to R151, R166). -/
def Obligations.AreaStateLaw : Prop :=
  ∀ s t : State, AreaOk s.xu → step s = .next t → AreaOk t.xu
end

