-- ==== Sys2Proof/Laws/Area.lean ====
section
/-! SUPPORT. The bytes put into line-computer memory: read after write, what a write leaves, and the canonical form. -/

namespace Sys2Proof.Machine

open Sys2Proof

/-! ## One byte -/

/-- A byte put at an address reads back. -/
@[simp] theorem readArea_putByte_self (m : List Host.Cell) (a : Nat) (b : Byte) : readArea (putByte m a b) a = some b := by
  induction m with
  | nil => simp [putByte, readArea]
  | cons x m ih =>
    obtain ⟨k, v⟩ := x
    simp only [putByte]
    split
    · simp [readArea]
    · split
      · simp [readArea]
      · rename_i h
        have hne : ¬ k = a := fun e => h e.symm
        simp [readArea, hne, ih]

/-- A byte put at an address leaves every other address as it reads. -/
theorem readArea_putByte_other (m : List Host.Cell) (a c : Nat) (b : Byte) (h : c ≠ a) :
    readArea (putByte m a b) c = readArea m c := by
  induction m with
  | nil => simp [putByte, readArea, Ne.symm h]
  | cons x m ih =>
    obtain ⟨k, v⟩ := x
    simp only [putByte]
    split
    · simp [readArea, Ne.symm h]
    · split
      · rename_i e
        subst e
        simp [readArea, Ne.symm h]
      · simp [readArea, ih]

/-- The canonical form, for a list with a first entry. -/
theorem areaWf_cons (k : Nat) (v : Byte) (m : List Host.Cell) :
    areaWf ((k, v) :: m) = true ↔ (∀ x ∈ m.head?, k < x.1) ∧ areaWf m = true := by
  cases m with
  | nil => simp [areaWf]
  | cons x m => obtain ⟨l, w⟩ := x; simp [areaWf]

/-- The first address after a byte is put at `a`. -/
theorem putByte_head (m : List Host.Cell) (a : Nat) (b : Byte) :
    ∀ x ∈ (putByte m a b).head?, x.1 = a ∨ ∃ y ∈ m.head?, x.1 = y.1 := by
  cases m with
  | nil => simp [putByte]
  | cons y m =>
    obtain ⟨k, v⟩ := y
    simp only [putByte]
    split
    · simp
    · split
      · simp
      · simp

/-- A byte put keeps the canonical form. -/
theorem areaWf_putByte (m : List Host.Cell) (a : Nat) (b : Byte) (h : areaWf m = true) : areaWf (putByte m a b) = true := by
  induction m with
  | nil => rfl
  | cons x m ih =>
    obtain ⟨k, v⟩ := x
    obtain ⟨hk, hm⟩ := (areaWf_cons k v m).1 h
    simp only [putByte]
    split
    · rename_i hlt
      exact (areaWf_cons a b _).2 ⟨by simpa using hlt, h⟩
    · split
      · rename_i e
        subst e
        exact (areaWf_cons a b m).2 ⟨hk, hm⟩
      · rename_i h₁ h₂
        refine (areaWf_cons k v _).2 ⟨fun x hx => ?_, ih hm⟩
        rcases putByte_head m a b x hx with e | ⟨y, hy, e⟩
        · omega
        · rw [e]; exact hk y hy

/-! ## A write -/

/-- The address after an offset, one byte on. -/
theorem addrAt_succ (a : Addr) (i : Nat) : addrAt (a + 1) i = addrAt a (i + 1) := by
  simp only [addrAt]
  apply BitVec.eq_of_toNat_eq
  simp
  omega

@[simp] theorem addrAt_zero (a : Addr) : addrAt a 0 = a := by simp [addrAt]

/-- Addresses of a write no longer than memory differ. -/
theorem addrAt_injective (a : Addr) (i j : Nat) (hi : i < 2 ^ 64) (hj : j < 2 ^ 64) (h : (addrAt a i).toNat = (addrAt a j).toNat) :
    i = j := by
  simp only [addrAt, BitVec.toNat_add, BitVec.toNat_ofNat] at h
  have ha := a.isLt
  omega

/-- A write leaves every address outside it as it reads. -/
theorem readArea_putBytes_other (bs : List Byte) (m : List Host.Cell) (a : Addr) (c : Nat)
    (h : ∀ i < bs.length, c ≠ (addrAt a i).toNat) : readArea (putBytes m a bs) c = readArea m c := by
  induction bs generalizing m a with
  | nil => rfl
  | cons b bs ih =>
    simp only [putBytes]
    rw [ih]
    · exact readArea_putByte_other _ _ _ _ (by simpa using h 0 (by simp))
    · intro i hi
      rw [addrAt_succ]
      exact h (i + 1) (by simpa using hi)

/-- A write no longer than memory reads back, byte by byte. -/
theorem readArea_putBytes_self (bs : List Byte) (m : List Host.Cell) (a : Addr) (i : Nat) (b : Byte) (hl : bs.length ≤ 2 ^ 64)
    (h : bs[i]? = some b) : readArea (putBytes m a bs) (addrAt a i).toNat = some b := by
  induction bs generalizing m a i with
  | nil => simp at h
  | cons x bs ih =>
    simp only [List.length_cons] at hl
    simp only [putBytes]
    cases i with
    | zero =>
      simp only [List.getElem?_cons_zero, Option.some.injEq] at h
      subst h
      rw [readArea_putBytes_other]
      · simp
      · intro i hi e
        rw [addrAt_succ] at e
        have := addrAt_injective a 0 (i + 1) (by omega) (by omega) e
        omega
    | succ i =>
      rw [← addrAt_succ]
      exact ih _ _ _ (by omega) (by simpa using h)

/-- A write keeps the canonical form. -/
theorem areaWf_putBytes (bs : List Byte) (m : List Host.Cell) (a : Addr) (h : areaWf m = true) : areaWf (putBytes m a bs) = true := by
  induction bs generalizing m a with
  | nil => exact h
  | cons b bs ih => exact ih _ _ (areaWf_putByte _ _ _ h)

/-- An accepted write lands (R152). -/
theorem land_lands (w : BusWrite) (s : State) (h : w.bytes.length ≤ 2 ^ 64) : Lands w s (s.land w) :=
  ⟨fun i b hb => readArea_putBytes_self w.bytes s.area w.addr i b h hb, fun a ha => readArea_putBytes_other w.bytes s.area w.addr a ha⟩

/-- An accepted write keeps the canonical form. -/
theorem areaWf_land (w : BusWrite) (s : State) (h : areaWf s.area = true) : areaWf (s.land w).area = true :=
  areaWf_putBytes _ _ _ h

end Sys2Proof.Machine
end

