-- ==== Sys2Proof/Laws/State.lean ====
section
/-! SUPPORT. One lemma for each field of the state under each named update, true by unfolding. -/

namespace Sys2Proof.Machine

open Sys2Proof

variable (s : State)

/-! ### `State.onTimer` -/

@[simp] theorem State.onTimer_variant (f : CycleTimer → CycleTimer) : (State.onTimer f s).variant = s.variant := rfl
@[simp] theorem State.onTimer_board (f : CycleTimer → CycleTimer) : (State.onTimer f s).board = s.board := rfl
@[simp] theorem State.onTimer_lines (f : CycleTimer → CycleTimer) : (State.onTimer f s).lines = s.lines := rfl
@[simp] theorem State.onTimer_timer (f : CycleTimer → CycleTimer) : (State.onTimer f s).timer = f s.timer := rfl
@[simp] theorem State.onTimer_front (f : CycleTimer → CycleTimer) : (State.onTimer f s).front = s.front := rfl
@[simp] theorem State.onTimer_corr (f : CycleTimer → CycleTimer) : (State.onTimer f s).corr = s.corr := rfl
@[simp] theorem State.onTimer_evid (f : CycleTimer → CycleTimer) : (State.onTimer f s).evid = s.evid := rfl
@[simp] theorem State.onTimer_mould (f : CycleTimer → CycleTimer) : (State.onTimer f s).mould = s.mould := rfl
@[simp] theorem State.onTimer_tester (f : CycleTimer → CycleTimer) : (State.onTimer f s).tester = s.tester := rfl
@[simp] theorem State.onTimer_xu (f : CycleTimer → CycleTimer) : (State.onTimer f s).xu = s.xu := rfl
@[simp] theorem State.onTimer_area (f : CycleTimer → CycleTimer) : (State.onTimer f s).area = s.area := rfl
@[simp] theorem State.onTimer_freeNext (f : CycleTimer → CycleTimer) : (State.onTimer f s).freeNext = s.freeNext := rfl
@[simp] theorem State.onTimer_pending (f : CycleTimer → CycleTimer) : (State.onTimer f s).pending = s.pending := rfl

/-! ### `State.onCorr` -/

@[simp] theorem State.onCorr_variant (f : Correlator → Correlator) : (State.onCorr f s).variant = s.variant := rfl
@[simp] theorem State.onCorr_board (f : Correlator → Correlator) : (State.onCorr f s).board = s.board := rfl
@[simp] theorem State.onCorr_lines (f : Correlator → Correlator) : (State.onCorr f s).lines = s.lines := rfl
@[simp] theorem State.onCorr_timer (f : Correlator → Correlator) : (State.onCorr f s).timer = s.timer := rfl
@[simp] theorem State.onCorr_front (f : Correlator → Correlator) : (State.onCorr f s).front = s.front := rfl
@[simp] theorem State.onCorr_corr (f : Correlator → Correlator) : (State.onCorr f s).corr = f s.corr := rfl
@[simp] theorem State.onCorr_evid (f : Correlator → Correlator) : (State.onCorr f s).evid = s.evid := rfl
@[simp] theorem State.onCorr_mould (f : Correlator → Correlator) : (State.onCorr f s).mould = s.mould := rfl
@[simp] theorem State.onCorr_tester (f : Correlator → Correlator) : (State.onCorr f s).tester = s.tester := rfl
@[simp] theorem State.onCorr_xu (f : Correlator → Correlator) : (State.onCorr f s).xu = s.xu := rfl
@[simp] theorem State.onCorr_area (f : Correlator → Correlator) : (State.onCorr f s).area = s.area := rfl
@[simp] theorem State.onCorr_freeNext (f : Correlator → Correlator) : (State.onCorr f s).freeNext = s.freeNext := rfl
@[simp] theorem State.onCorr_pending (f : Correlator → Correlator) : (State.onCorr f s).pending = s.pending := rfl

/-! ### `State.onEvid` -/

@[simp] theorem State.onEvid_variant (f : Evidence → Evidence) : (State.onEvid f s).variant = s.variant := rfl
@[simp] theorem State.onEvid_board (f : Evidence → Evidence) : (State.onEvid f s).board = s.board := rfl
@[simp] theorem State.onEvid_lines (f : Evidence → Evidence) : (State.onEvid f s).lines = s.lines := rfl
@[simp] theorem State.onEvid_timer (f : Evidence → Evidence) : (State.onEvid f s).timer = s.timer := rfl
@[simp] theorem State.onEvid_front (f : Evidence → Evidence) : (State.onEvid f s).front = s.front := rfl
@[simp] theorem State.onEvid_corr (f : Evidence → Evidence) : (State.onEvid f s).corr = s.corr := rfl
@[simp] theorem State.onEvid_evid (f : Evidence → Evidence) : (State.onEvid f s).evid = f s.evid := rfl
@[simp] theorem State.onEvid_mould (f : Evidence → Evidence) : (State.onEvid f s).mould = s.mould := rfl
@[simp] theorem State.onEvid_tester (f : Evidence → Evidence) : (State.onEvid f s).tester = s.tester := rfl
@[simp] theorem State.onEvid_xu (f : Evidence → Evidence) : (State.onEvid f s).xu = s.xu := rfl
@[simp] theorem State.onEvid_area (f : Evidence → Evidence) : (State.onEvid f s).area = s.area := rfl
@[simp] theorem State.onEvid_freeNext (f : Evidence → Evidence) : (State.onEvid f s).freeNext = s.freeNext := rfl
@[simp] theorem State.onEvid_pending (f : Evidence → Evidence) : (State.onEvid f s).pending = s.pending := rfl

/-! ### `State.onMould` -/

@[simp] theorem State.onMould_variant (f : MouldManager → MouldManager) : (State.onMould f s).variant = s.variant := rfl
@[simp] theorem State.onMould_board (f : MouldManager → MouldManager) : (State.onMould f s).board = s.board := rfl
@[simp] theorem State.onMould_lines (f : MouldManager → MouldManager) : (State.onMould f s).lines = s.lines := rfl
@[simp] theorem State.onMould_timer (f : MouldManager → MouldManager) : (State.onMould f s).timer = s.timer := rfl
@[simp] theorem State.onMould_front (f : MouldManager → MouldManager) : (State.onMould f s).front = s.front := rfl
@[simp] theorem State.onMould_corr (f : MouldManager → MouldManager) : (State.onMould f s).corr = s.corr := rfl
@[simp] theorem State.onMould_evid (f : MouldManager → MouldManager) : (State.onMould f s).evid = s.evid := rfl
@[simp] theorem State.onMould_mould (f : MouldManager → MouldManager) : (State.onMould f s).mould = f s.mould := rfl
@[simp] theorem State.onMould_tester (f : MouldManager → MouldManager) : (State.onMould f s).tester = s.tester := rfl
@[simp] theorem State.onMould_xu (f : MouldManager → MouldManager) : (State.onMould f s).xu = s.xu := rfl
@[simp] theorem State.onMould_area (f : MouldManager → MouldManager) : (State.onMould f s).area = s.area := rfl
@[simp] theorem State.onMould_freeNext (f : MouldManager → MouldManager) : (State.onMould f s).freeNext = s.freeNext := rfl
@[simp] theorem State.onMould_pending (f : MouldManager → MouldManager) : (State.onMould f s).pending = s.pending := rfl

/-! ### `State.onXu` -/

@[simp] theorem State.onXu_variant (f : Exchange → Exchange) : (State.onXu f s).variant = s.variant := rfl
@[simp] theorem State.onXu_board (f : Exchange → Exchange) : (State.onXu f s).board = s.board := rfl
@[simp] theorem State.onXu_lines (f : Exchange → Exchange) : (State.onXu f s).lines = s.lines := rfl
@[simp] theorem State.onXu_timer (f : Exchange → Exchange) : (State.onXu f s).timer = s.timer := rfl
@[simp] theorem State.onXu_front (f : Exchange → Exchange) : (State.onXu f s).front = s.front := rfl
@[simp] theorem State.onXu_corr (f : Exchange → Exchange) : (State.onXu f s).corr = s.corr := rfl
@[simp] theorem State.onXu_evid (f : Exchange → Exchange) : (State.onXu f s).evid = s.evid := rfl
@[simp] theorem State.onXu_mould (f : Exchange → Exchange) : (State.onXu f s).mould = s.mould := rfl
@[simp] theorem State.onXu_tester (f : Exchange → Exchange) : (State.onXu f s).tester = s.tester := rfl
@[simp] theorem State.onXu_xu (f : Exchange → Exchange) : (State.onXu f s).xu = f s.xu := rfl
@[simp] theorem State.onXu_area (f : Exchange → Exchange) : (State.onXu f s).area = s.area := rfl
@[simp] theorem State.onXu_freeNext (f : Exchange → Exchange) : (State.onXu f s).freeNext = s.freeNext := rfl
@[simp] theorem State.onXu_pending (f : Exchange → Exchange) : (State.onXu f s).pending = s.pending := rfl

/-! ### `State.onBoard` -/

@[simp] theorem State.onBoard_variant (f : Board → Board) : (State.onBoard f s).variant = s.variant := rfl
@[simp] theorem State.onBoard_board (f : Board → Board) : (State.onBoard f s).board = f s.board := rfl
@[simp] theorem State.onBoard_lines (f : Board → Board) : (State.onBoard f s).lines = s.lines := rfl
@[simp] theorem State.onBoard_timer (f : Board → Board) : (State.onBoard f s).timer = s.timer := rfl
@[simp] theorem State.onBoard_front (f : Board → Board) : (State.onBoard f s).front = s.front := rfl
@[simp] theorem State.onBoard_corr (f : Board → Board) : (State.onBoard f s).corr = s.corr := rfl
@[simp] theorem State.onBoard_evid (f : Board → Board) : (State.onBoard f s).evid = s.evid := rfl
@[simp] theorem State.onBoard_mould (f : Board → Board) : (State.onBoard f s).mould = s.mould := rfl
@[simp] theorem State.onBoard_tester (f : Board → Board) : (State.onBoard f s).tester = s.tester := rfl
@[simp] theorem State.onBoard_xu (f : Board → Board) : (State.onBoard f s).xu = s.xu := rfl
@[simp] theorem State.onBoard_area (f : Board → Board) : (State.onBoard f s).area = s.area := rfl
@[simp] theorem State.onBoard_freeNext (f : Board → Board) : (State.onBoard f s).freeNext = s.freeNext := rfl
@[simp] theorem State.onBoard_pending (f : Board → Board) : (State.onBoard f s).pending = s.pending := rfl

/-! ### `State.putLine` -/

@[simp] theorem State.putLine_variant (l : Line) (v : LineInput) : (State.putLine l v s).variant = s.variant := rfl
@[simp] theorem State.putLine_board (l : Line) (v : LineInput) : (State.putLine l v s).board = s.board := rfl
@[simp] theorem State.putLine_lines (l : Line) (v : LineInput) : (State.putLine l v s).lines = s.lines.put l v := rfl
@[simp] theorem State.putLine_timer (l : Line) (v : LineInput) : (State.putLine l v s).timer = s.timer := rfl
@[simp] theorem State.putLine_front (l : Line) (v : LineInput) : (State.putLine l v s).front = s.front := rfl
@[simp] theorem State.putLine_corr (l : Line) (v : LineInput) : (State.putLine l v s).corr = s.corr := rfl
@[simp] theorem State.putLine_evid (l : Line) (v : LineInput) : (State.putLine l v s).evid = s.evid := rfl
@[simp] theorem State.putLine_mould (l : Line) (v : LineInput) : (State.putLine l v s).mould = s.mould := rfl
@[simp] theorem State.putLine_tester (l : Line) (v : LineInput) : (State.putLine l v s).tester = s.tester := rfl
@[simp] theorem State.putLine_xu (l : Line) (v : LineInput) : (State.putLine l v s).xu = s.xu := rfl
@[simp] theorem State.putLine_area (l : Line) (v : LineInput) : (State.putLine l v s).area = s.area := rfl
@[simp] theorem State.putLine_freeNext (l : Line) (v : LineInput) : (State.putLine l v s).freeNext = s.freeNext := rfl
@[simp] theorem State.putLine_pending (l : Line) (v : LineInput) : (State.putLine l v s).pending = s.pending := rfl

/-! ### `State.onChannel` -/

@[simp] theorem State.onChannel_variant (c : ChannelNo) (f : Channel → Channel) : (State.onChannel c f s).variant = s.variant := rfl
@[simp] theorem State.onChannel_board (c : ChannelNo) (f : Channel → Channel) : (State.onChannel c f s).board = s.board := rfl
@[simp] theorem State.onChannel_lines (c : ChannelNo) (f : Channel → Channel) : (State.onChannel c f s).lines = s.lines := rfl
@[simp] theorem State.onChannel_timer (c : ChannelNo) (f : Channel → Channel) : (State.onChannel c f s).timer = s.timer := rfl
@[simp] theorem State.onChannel_front (c : ChannelNo) (f : Channel → Channel) : (State.onChannel c f s).front = { s.front with channels := s.front.channels.set c (f s.front.channels[c]) } := rfl
@[simp] theorem State.onChannel_corr (c : ChannelNo) (f : Channel → Channel) : (State.onChannel c f s).corr = s.corr := rfl
@[simp] theorem State.onChannel_evid (c : ChannelNo) (f : Channel → Channel) : (State.onChannel c f s).evid = s.evid := rfl
@[simp] theorem State.onChannel_mould (c : ChannelNo) (f : Channel → Channel) : (State.onChannel c f s).mould = s.mould := rfl
@[simp] theorem State.onChannel_tester (c : ChannelNo) (f : Channel → Channel) : (State.onChannel c f s).tester = s.tester := rfl
@[simp] theorem State.onChannel_xu (c : ChannelNo) (f : Channel → Channel) : (State.onChannel c f s).xu = s.xu := rfl
@[simp] theorem State.onChannel_area (c : ChannelNo) (f : Channel → Channel) : (State.onChannel c f s).area = s.area := rfl
@[simp] theorem State.onChannel_freeNext (c : ChannelNo) (f : Channel → Channel) : (State.onChannel c f s).freeNext = s.freeNext := rfl
@[simp] theorem State.onChannel_pending (c : ChannelNo) (f : Channel → Channel) : (State.onChannel c f s).pending = s.pending := rfl

/-! ### `State.putPlace` -/

@[simp] theorem State.putPlace_variant (c : ChannelNo) (p : HitPlace) : (State.putPlace c p s).variant = s.variant := rfl
@[simp] theorem State.putPlace_board (c : ChannelNo) (p : HitPlace) : (State.putPlace c p s).board = s.board := rfl
@[simp] theorem State.putPlace_lines (c : ChannelNo) (p : HitPlace) : (State.putPlace c p s).lines = s.lines := rfl
@[simp] theorem State.putPlace_timer (c : ChannelNo) (p : HitPlace) : (State.putPlace c p s).timer = s.timer := rfl
@[simp] theorem State.putPlace_front (c : ChannelNo) (p : HitPlace) : (State.putPlace c p s).front = s.front := rfl
@[simp] theorem State.putPlace_corr (c : ChannelNo) (p : HitPlace) : (State.putPlace c p s).corr = { s.corr with places := s.corr.places.set c p } := rfl
@[simp] theorem State.putPlace_evid (c : ChannelNo) (p : HitPlace) : (State.putPlace c p s).evid = s.evid := rfl
@[simp] theorem State.putPlace_mould (c : ChannelNo) (p : HitPlace) : (State.putPlace c p s).mould = s.mould := rfl
@[simp] theorem State.putPlace_tester (c : ChannelNo) (p : HitPlace) : (State.putPlace c p s).tester = s.tester := rfl
@[simp] theorem State.putPlace_xu (c : ChannelNo) (p : HitPlace) : (State.putPlace c p s).xu = s.xu := rfl
@[simp] theorem State.putPlace_area (c : ChannelNo) (p : HitPlace) : (State.putPlace c p s).area = s.area := rfl
@[simp] theorem State.putPlace_freeNext (c : ChannelNo) (p : HitPlace) : (State.putPlace c p s).freeNext = s.freeNext := rfl
@[simp] theorem State.putPlace_pending (c : ChannelNo) (p : HitPlace) : (State.putPlace c p s).pending = s.pending := rfl

/-! ### `State.putCell` -/

@[simp] theorem State.putCell_variant (k : CellNo) (e : CellEntry) : (State.putCell k e s).variant = s.variant := rfl
@[simp] theorem State.putCell_board (k : CellNo) (e : CellEntry) : (State.putCell k e s).board = s.board := rfl
@[simp] theorem State.putCell_lines (k : CellNo) (e : CellEntry) : (State.putCell k e s).lines = s.lines := rfl
@[simp] theorem State.putCell_timer (k : CellNo) (e : CellEntry) : (State.putCell k e s).timer = s.timer := rfl
@[simp] theorem State.putCell_front (k : CellNo) (e : CellEntry) : (State.putCell k e s).front = s.front := rfl
@[simp] theorem State.putCell_corr (k : CellNo) (e : CellEntry) : (State.putCell k e s).corr = s.corr := rfl
@[simp] theorem State.putCell_evid (k : CellNo) (e : CellEntry) : (State.putCell k e s).evid = s.evid := rfl
@[simp] theorem State.putCell_mould (k : CellNo) (e : CellEntry) : (State.putCell k e s).mould = s.mould := rfl
@[simp] theorem State.putCell_tester (k : CellNo) (e : CellEntry) : (State.putCell k e s).tester = s.tester := rfl
@[simp] theorem State.putCell_xu (k : CellNo) (e : CellEntry) : (State.putCell k e s).xu = { s.xu with cells := s.xu.cells.set k e } := rfl
@[simp] theorem State.putCell_area (k : CellNo) (e : CellEntry) : (State.putCell k e s).area = s.area := rfl
@[simp] theorem State.putCell_freeNext (k : CellNo) (e : CellEntry) : (State.putCell k e s).freeNext = s.freeNext := rfl
@[simp] theorem State.putCell_pending (k : CellNo) (e : CellEntry) : (State.putCell k e s).pending = s.pending := rfl

/-! ### `State.land` -/

@[simp] theorem State.land_variant (w : BusWrite) : (State.land w s).variant = s.variant := rfl
@[simp] theorem State.land_board (w : BusWrite) : (State.land w s).board = s.board := rfl
@[simp] theorem State.land_lines (w : BusWrite) : (State.land w s).lines = s.lines := rfl
@[simp] theorem State.land_timer (w : BusWrite) : (State.land w s).timer = s.timer := rfl
@[simp] theorem State.land_front (w : BusWrite) : (State.land w s).front = s.front := rfl
@[simp] theorem State.land_corr (w : BusWrite) : (State.land w s).corr = s.corr := rfl
@[simp] theorem State.land_evid (w : BusWrite) : (State.land w s).evid = s.evid := rfl
@[simp] theorem State.land_mould (w : BusWrite) : (State.land w s).mould = s.mould := rfl
@[simp] theorem State.land_tester (w : BusWrite) : (State.land w s).tester = s.tester := rfl
@[simp] theorem State.land_xu (w : BusWrite) : (State.land w s).xu = s.xu := rfl
@[simp] theorem State.land_area (w : BusWrite) : (State.land w s).area = putBytes s.area w.addr w.bytes := rfl
@[simp] theorem State.land_freeNext (w : BusWrite) : (State.land w s).freeNext = s.freeNext := rfl
@[simp] theorem State.land_pending (w : BusWrite) : (State.land w s).pending = s.pending := rfl

/-! ### `State.onTables` -/

@[simp] theorem State.onTables_variant (f : Tables → Tables) : (State.onTables f s).variant = s.variant := rfl
@[simp] theorem State.onTables_board (f : Tables → Tables) : (State.onTables f s).board = s.board := rfl
@[simp] theorem State.onTables_lines (f : Tables → Tables) : (State.onTables f s).lines = s.lines := rfl
@[simp] theorem State.onTables_timer (f : Tables → Tables) : (State.onTables f s).timer = s.timer := rfl
@[simp] theorem State.onTables_front (f : Tables → Tables) : (State.onTables f s).front = s.front := rfl
@[simp] theorem State.onTables_corr (f : Tables → Tables) : (State.onTables f s).corr = s.corr := rfl
@[simp] theorem State.onTables_evid (f : Tables → Tables) : (State.onTables f s).evid = { s.evid with tables := s.evid.tables.map f } := rfl
@[simp] theorem State.onTables_mould (f : Tables → Tables) : (State.onTables f s).mould = s.mould := rfl
@[simp] theorem State.onTables_tester (f : Tables → Tables) : (State.onTables f s).tester = s.tester := rfl
@[simp] theorem State.onTables_xu (f : Tables → Tables) : (State.onTables f s).xu = s.xu := rfl
@[simp] theorem State.onTables_area (f : Tables → Tables) : (State.onTables f s).area = s.area := rfl
@[simp] theorem State.onTables_freeNext (f : Tables → Tables) : (State.onTables f s).freeNext = s.freeNext := rfl
@[simp] theorem State.onTables_pending (f : Tables → Tables) : (State.onTables f s).pending = s.pending := rfl

/-! ### `State.onTallies` -/

@[simp] theorem State.onTallies_variant (f : Tallies → Tallies) : (State.onTallies f s).variant = s.variant := rfl
@[simp] theorem State.onTallies_board (f : Tallies → Tallies) : (State.onTallies f s).board = s.board := rfl
@[simp] theorem State.onTallies_lines (f : Tallies → Tallies) : (State.onTallies f s).lines = s.lines := rfl
@[simp] theorem State.onTallies_timer (f : Tallies → Tallies) : (State.onTallies f s).timer = s.timer := rfl
@[simp] theorem State.onTallies_front (f : Tallies → Tallies) : (State.onTallies f s).front = s.front := rfl
@[simp] theorem State.onTallies_corr (f : Tallies → Tallies) : (State.onTallies f s).corr = { s.corr with tallies := f s.corr.tallies } := rfl
@[simp] theorem State.onTallies_evid (f : Tallies → Tallies) : (State.onTallies f s).evid = s.evid := rfl
@[simp] theorem State.onTallies_mould (f : Tallies → Tallies) : (State.onTallies f s).mould = s.mould := rfl
@[simp] theorem State.onTallies_tester (f : Tallies → Tallies) : (State.onTallies f s).tester = s.tester := rfl
@[simp] theorem State.onTallies_xu (f : Tallies → Tallies) : (State.onTallies f s).xu = s.xu := rfl
@[simp] theorem State.onTallies_area (f : Tallies → Tallies) : (State.onTallies f s).area = s.area := rfl
@[simp] theorem State.onTallies_freeNext (f : Tallies → Tallies) : (State.onTallies f s).freeNext = s.freeNext := rfl
@[simp] theorem State.onTallies_pending (f : Tallies → Tallies) : (State.onTallies f s).pending = s.pending := rfl

/-! ### `State.useFree` and `dropHead` -/

@[simp] theorem State.useFree_variant : s.useFree.variant = s.variant := rfl
@[simp] theorem State.useFree_board : s.useFree.board = s.board := rfl
@[simp] theorem State.useFree_lines : s.useFree.lines = s.lines := rfl
@[simp] theorem State.useFree_timer : s.useFree.timer = s.timer := rfl
@[simp] theorem State.useFree_front : s.useFree.front = s.front := rfl
@[simp] theorem State.useFree_corr : s.useFree.corr = s.corr := rfl
@[simp] theorem State.useFree_evid : s.useFree.evid = s.evid := rfl
@[simp] theorem State.useFree_mould : s.useFree.mould = s.mould := rfl
@[simp] theorem State.useFree_tester : s.useFree.tester = s.tester := rfl
@[simp] theorem State.useFree_xu : s.useFree.xu = s.xu := rfl
@[simp] theorem State.useFree_area : s.useFree.area = s.area := rfl
@[simp] theorem State.useFree_freeNext : s.useFree.freeNext = s.freeNext + 1 := rfl
@[simp] theorem State.useFree_pending : s.useFree.pending = s.pending := rfl
@[simp] theorem dropHead_variant : (dropHead s).variant = s.variant := rfl
@[simp] theorem dropHead_board : (dropHead s).board = s.board := rfl
@[simp] theorem dropHead_lines : (dropHead s).lines = s.lines := rfl
@[simp] theorem dropHead_timer : (dropHead s).timer = s.timer := rfl
@[simp] theorem dropHead_front : (dropHead s).front = s.front := rfl
@[simp] theorem dropHead_corr : (dropHead s).corr = s.corr := rfl
@[simp] theorem dropHead_evid : (dropHead s).evid = s.evid := rfl
@[simp] theorem dropHead_mould : (dropHead s).mould = s.mould := rfl
@[simp] theorem dropHead_tester : (dropHead s).tester = s.tester.tail := rfl
@[simp] theorem dropHead_xu : (dropHead s).xu = s.xu := rfl
@[simp] theorem dropHead_area : (dropHead s).area = s.area := rfl
@[simp] theorem dropHead_freeNext : (dropHead s).freeNext = s.freeNext := rfl
@[simp] theorem dropHead_pending : (dropHead s).pending = s.pending := rfl

/-! ### `State.onTest` -/

@[simp] theorem State.onTest_variant (f : Test → Test) : (s.onTest f).variant = s.variant := by unfold State.onTest; split <;> rfl
@[simp] theorem State.onTest_board (f : Test → Test) : (s.onTest f).board = s.board := by unfold State.onTest; split <;> rfl
@[simp] theorem State.onTest_lines (f : Test → Test) : (s.onTest f).lines = s.lines := by unfold State.onTest; split <;> rfl
@[simp] theorem State.onTest_timer (f : Test → Test) : (s.onTest f).timer = s.timer := by unfold State.onTest; split <;> rfl
@[simp] theorem State.onTest_front (f : Test → Test) : (s.onTest f).front = s.front := by unfold State.onTest; split <;> rfl
@[simp] theorem State.onTest_corr (f : Test → Test) : (s.onTest f).corr = s.corr := by unfold State.onTest; split <;> rfl
@[simp] theorem State.onTest_evid (f : Test → Test) : (s.onTest f).evid = s.evid := by unfold State.onTest; split <;> rfl
@[simp] theorem State.onTest_mould (f : Test → Test) : (s.onTest f).mould = s.mould := by unfold State.onTest; split <;> rfl
@[simp] theorem State.onTest_tester_cons (f : Test → Test) {t : Test} {ts : List Test} (h : s.tester = t :: ts) :
    (s.onTest f).tester = f t :: ts := by
  simp [State.onTest, h]
@[simp] theorem State.onTest_tester_length (f : Test → Test) : (s.onTest f).tester.length = s.tester.length := by
  unfold State.onTest; split <;> simp_all
@[simp] theorem State.onTest_xu (f : Test → Test) : (s.onTest f).xu = s.xu := by unfold State.onTest; split <;> rfl
@[simp] theorem State.onTest_area (f : Test → Test) : (s.onTest f).area = s.area := by unfold State.onTest; split <;> rfl
@[simp] theorem State.onTest_freeNext (f : Test → Test) : (s.onTest f).freeNext = s.freeNext := by unfold State.onTest; split <;> rfl
@[simp] theorem State.onTest_pending (f : Test → Test) : (s.onTest f).pending = s.pending := by unfold State.onTest; split <;> rfl

/-! ### Channels -/

@[simp] theorem State.channel_onTimer (f : CycleTimer → CycleTimer) (c : ChannelNo) : (s.onTimer f).channel c = s.channel c := rfl
@[simp] theorem State.channel_onCorr (f : Correlator → Correlator) (c : ChannelNo) : (s.onCorr f).channel c = s.channel c := rfl
@[simp] theorem State.channel_onEvid (f : Evidence → Evidence) (c : ChannelNo) : (s.onEvid f).channel c = s.channel c := rfl
@[simp] theorem State.channel_onMould (f : MouldManager → MouldManager) (c : ChannelNo) : (s.onMould f).channel c = s.channel c := rfl
@[simp] theorem State.channel_onXu (f : Exchange → Exchange) (c : ChannelNo) : (s.onXu f).channel c = s.channel c := rfl

/-- The record of a channel that an update names. -/
@[simp] theorem State.channel_onChannel_self (c : ChannelNo) (f : Channel → Channel) : (s.onChannel c f).channel c = f (s.channel c) := by
  simp [State.channel, State.onChannel]

/-- The record of a channel that an update does not name. -/
theorem State.channel_onChannel_ne {c d : ChannelNo} (h : d ≠ c) (f : Channel → Channel) : (s.onChannel c f).channel d = s.channel d := by
  have h' : (c : Nat) ≠ (d : Nat) := fun e => h (Fin.ext e.symm)
  simp [State.channel, State.onChannel, Vector.getElem_set_ne _ _ h']

end Sys2Proof.Machine
end

