-- ==== Sys2Proof/Laws/Keeps.lean ====
section
/-! SUPPORT. What each shared operation can do: one lemma for each, over the relation `Keeps`, which names what may change, says that
everything else stands, and says which of the part's laws are kept. -/

namespace Sys2Proof.Machine

open Sys2Proof

/-- What an operation may change: the blocks; `unit` is the exchange unit's own enable, area and attention; `start` is a hit start's
work on the event list; `tables` is the building, loading, clearing or closing of the zone table, and the setting of base
thresholds. -/
structure Parts where
  timer : Bool := false
  front : Bool := false
  corr : Bool := false
  evid : Bool := false
  mould : Bool := false
  tester : Bool := false
  unit : Bool := false
  start : Bool := false
  tables : Bool := false
  deriving DecidableEq, Repr

/-- The exchange unit's own state stands. -/
structure UnitSame (x y : Exchange) : Prop where
  en : y.en = x.en
  area : y.area = x.area
  enabling : y.enabling = x.enabling
  attn : y.attn = x.attn
  geometry : y.geometry = x.geometry
  baseL : y.baseL = x.baseL
  baseH : y.baseH = x.baseH
  checkCode : y.checkCode = x.checkCode
  consumedJournal : y.consumedJournal = x.consumedJournal
  lastNoticed : y.lastNoticed = x.lastNoticed

/-- Every member is a channel of the variant (R51). -/
abbrev MembersFitted (v : Variant) (es : List Event) : Prop := ∀ e ∈ es, ∀ m ∈ e.members, m.chan.val < channelCount v

/-- Only a channel of the variant has a base threshold (R27). -/
abbrev BasesFitted (s : State) : Prop := ∀ c : ChannelNo, (s.channel c).base ≠ none → c.val < channelCount s.variant

/-- The laws of the evidence table, over an operation that does not build, load, clear or close it. -/
structure ZonesKept (s t : State) : Prop where
  part : t.evid.part = s.evid.part
  latch : t.evid.stopLatch = s.evid.stopLatch
  scores : ScoresOk s → ScoresOk t
  gone : s.evid.tables = none → t.evid.tables = none
  cracked : ∀ i : Nat, CrackedAt s i → t.evid.tables = none ∨ CrackedAt t i
  uncracked : ∀ i : Nat, CrackedAt t i → CrackedAt s i
  bases : BasesFitted s → BasesFitted t

/-- Everything but what is named, the exchange unit's requests and the index of the next free value stands, and the laws are kept. -/
structure Keeps (p : Parts) (s t : State) : Prop where
  variant : t.variant = s.variant
  board : t.board = s.board
  lines : t.lines = s.lines
  area : t.area = s.area
  pending : t.pending = s.pending
  queue : QueueOk s → QueueOk t
  tests : TestsOk s → TestsOk t
  timer : p.timer = false → t.timer = s.timer
  front : p.front = false → t.front = s.front
  corr : p.corr = false → t.corr = s.corr
  evid : p.evid = false → t.evid = s.evid
  mould : p.mould = false → t.mould = s.mould
  tester : p.tester = false → t.tester = s.tester
  unit : p.unit = false → UnitSame s.xu t.xu
  events : p.start = false → EventsOk s.corr.events → EventsOk t.corr.events
  members : p.start = false → ∀ v, MembersFitted v s.corr.events → MembersFitted v t.corr.events
  zones : p.tables = false → ZonesKept s t

/-- One set lies within another. -/
def Parts.within (p q : Parts) : Bool :=
  (!p.timer || q.timer) && (!p.front || q.front) && (!p.corr || q.corr) && (!p.evid || q.evid) && (!p.mould || q.mould)
    && (!p.tester || q.tester) && (!p.unit || q.unit) && (!p.start || q.start) && (!p.tables || q.tables)

/-- No block but the exchange unit. -/
def exchangeOnly : Parts := {}

/-- The evidence table. -/
def evidenceOnly : Parts := { evid := true }

/-- The evidence table, built, loaded, cleared or closed. -/
def tablesOnly : Parts := { evid := true, tables := true }

/-- What an event's close and a hit's end may change. -/
def acoustic : Parts := { corr := true, evid := true }

/-- What a hit's start may change. -/
def starting : Parts := { corr := true, evid := true, start := true }

/-- What a channel's report may change in the mould manager. -/
def mouldOnly : Parts := { mould := true }

/-- The channel front end. -/
def frontOnly : Parts := { front := true }

/-- What the tester and the channels may change between them. -/
def sounding : Parts := { front := true, corr := true, evid := true, mould := true, tester := true }

/-- The mould manager's leaving. -/
def leaving : Parts := { front := true, evid := true, mould := true }

/-- The mould manager's building. -/
def building : Parts := { front := true, evid := true, mould := true, tables := true }

variable {p q : Parts} {s t u : State}

theorem UnitSame.refl (x : Exchange) : UnitSame x x := ⟨rfl, rfl, rfl, rfl, rfl, rfl, rfl, rfl, rfl, rfl⟩

theorem UnitSame.trans {x y z : Exchange} (h : UnitSame x y) (k : UnitSame y z) : UnitSame x z :=
  ⟨k.en.trans h.en, k.area.trans h.area, k.enabling.trans h.enabling, k.attn.trans h.attn, k.geometry.trans h.geometry,
   k.baseL.trans h.baseL, k.baseH.trans h.baseH, k.checkCode.trans h.checkCode, k.consumedJournal.trans h.consumedJournal,
   k.lastNoticed.trans h.lastNoticed⟩

theorem ZonesKept.refl (s : State) : ZonesKept s s := ⟨rfl, rfl, id, id, fun _ h => .inr h, fun _ h => h, id⟩

theorem ZonesKept.trans (h : ZonesKept s t) (k : ZonesKept t u) : ZonesKept s u :=
  ⟨k.part.trans h.part, k.latch.trans h.latch, fun e => k.scores (h.scores e), fun e => k.gone (h.gone e),
   fun i e => (h.cracked i e).elim (fun g => .inl (k.gone g)) (k.cracked i), fun i e => h.uncracked i (k.uncracked i e),
   fun e => k.bases (h.bases e)⟩

/-- The zones and the channels' thresholds stand, and nothing else of the evidence table but the blink and the paths changes. -/
theorem ZonesKept.of_eq (h₁ : t.evid.part = s.evid.part) (h₂ : t.evid.stopLatch = s.evid.stopLatch)
    (h₃ : t.evid.tables.map (·.zones) = s.evid.tables.map (·.zones)) (h₄ : BasesFitted s → BasesFitted t) : ZonesKept s t := by
  have z : zonesOf t = zonesOf s := by
    unfold zonesOf
    cases hs : s.evid.tables <;> cases ht : t.evid.tables <;> simp_all
  refine ⟨h₁, h₂, fun h => ?_, fun h => ?_, fun i h => ?_, fun i h => ?_, h₄⟩
  · unfold ScoresOk; rw [z]; exact h
  · rw [h] at h₃; simpa using h₃
  · right; unfold CrackedAt; rw [z]; exact h
  · unfold CrackedAt; rw [← z]; exact h

/-- Nothing that the laws read changes in the evidence table or the front end. -/
theorem ZonesKept.same (h₁ : t.evid = s.evid) (h₂ : t.front = s.front) (h₃ : t.variant = s.variant) : ZonesKept s t :=
  .of_eq (by rw [h₁]) (by rw [h₁]) (by rw [h₁]) (by intro h; unfold BasesFitted State.channel; rw [h₂, h₃]; exact h)

theorem Keeps.refl (p : Parts) (s : State) : Keeps p s s where
  variant := rfl
  board := rfl
  lines := rfl
  area := rfl
  pending := rfl
  queue := id
  tests := id
  timer _ := rfl
  front _ := rfl
  corr _ := rfl
  evid _ := rfl
  mould _ := rfl
  tester _ := rfl
  unit _ := .refl _
  events _ := id
  members _ _ := id
  zones _ := .refl _

theorem Keeps.trans (h : Keeps p s t) (k : Keeps p t u) : Keeps p s u where
  variant := k.variant.trans h.variant
  board := k.board.trans h.board
  lines := k.lines.trans h.lines
  area := k.area.trans h.area
  pending := k.pending.trans h.pending
  queue e := k.queue (h.queue e)
  tests e := k.tests (h.tests e)
  timer e := (k.timer e).trans (h.timer e)
  front e := (k.front e).trans (h.front e)
  corr e := (k.corr e).trans (h.corr e)
  evid e := (k.evid e).trans (h.evid e)
  mould e := (k.mould e).trans (h.mould e)
  tester e := (k.tester e).trans (h.tester e)
  unit e := (h.unit e).trans (k.unit e)
  events e f := k.events e (h.events e f)
  members e v f := k.members e v (h.members e v f)
  zones e := (h.zones e).trans (k.zones e)

theorem Keeps.mono (h : Keeps p s t) (w : p.within q = true) : Keeps q s t := by
  simp only [Parts.within, Bool.and_eq_true, Bool.or_eq_true, Bool.not_eq_true'] at w
  obtain ⟨⟨⟨⟨⟨⟨⟨⟨w₁, w₂⟩, w₃⟩, w₄⟩, w₅⟩, w₆⟩, w₇⟩, w₈⟩, w₉⟩ := w
  exact
    { variant := h.variant, board := h.board, lines := h.lines, area := h.area, pending := h.pending, queue := h.queue
      tests := h.tests
      timer := fun e => h.timer (by simp_all), front := fun e => h.front (by simp_all), corr := fun e => h.corr (by simp_all)
      evid := fun e => h.evid (by simp_all), mould := fun e => h.mould (by simp_all), tester := fun e => h.tester (by simp_all)
      unit := fun e => h.unit (by simp_all), events := fun e => h.events (by simp_all), members := fun e => h.members (by simp_all)
      zones := fun e => h.zones (by simp_all) }

/-- A fold keeps what each of its steps keeps. -/
theorem Keeps.foldl {α : Type} (f : State → α → State) (h : ∀ s x, Keeps p s (f s x)) (xs : List α) (s : State) :
    Keeps p s (xs.foldl f s) := by
  induction xs generalizing s with
  | nil => exact Keeps.refl p s
  | cons x xs ih => exact (h s x).trans (ih _)

/-! ## Updates of one block -/

/-- The exchange unit changed, its own state and the length of its queue left as they are. -/
theorem onXu_keeps (f : Exchange → Exchange) (s : State) (h : ∀ x, UnitSame x (f x)) (k : ∀ x, (f x).queue = x.queue) :
    Keeps p s (s.onXu f) where
  variant := rfl
  board := rfl
  lines := rfl
  area := rfl
  pending := rfl
  queue e := by unfold QueueOk State.onXu; simp only [k]; exact e
  tests := id
  timer _ := rfl
  front _ := rfl
  corr _ := rfl
  evid _ := rfl
  mould _ := rfl
  tester _ := rfl
  unit _ := h _
  events _ := id
  members _ _ := id
  zones _ := .same rfl rfl rfl

theorem putCell_keeps (k : CellNo) (e : CellEntry) (s : State) : Keeps p s (s.putCell k e) where
  variant := rfl
  board := rfl
  lines := rfl
  area := rfl
  pending := rfl
  queue := id
  tests := id
  timer _ := rfl
  front _ := rfl
  corr _ := rfl
  evid _ := rfl
  mould _ := rfl
  tester _ := rfl
  unit _ := ⟨rfl, rfl, rfl, rfl, rfl, rfl, rfl, rfl, rfl, rfl⟩
  events _ := id
  members _ _ := id
  zones _ := .same rfl rfl rfl

theorem useFree_keeps (s : State) : Keeps p s s.useFree where
  variant := rfl
  board := rfl
  lines := rfl
  area := rfl
  pending := rfl
  queue := id
  tests := id
  timer _ := rfl
  front _ := rfl
  corr _ := rfl
  evid _ := rfl
  mould _ := rfl
  tester _ := rfl
  unit _ := .refl _
  events _ := id
  members _ _ := id
  zones _ := .same rfl rfl rfl

theorem onMould_keeps (f : MouldManager → MouldManager) (s : State) : Keeps mouldOnly s (s.onMould f) where
  variant := rfl
  board := rfl
  lines := rfl
  area := rfl
  pending := rfl
  queue := id
  tests := id
  timer _ := rfl
  front _ := rfl
  corr _ := rfl
  evid _ := rfl
  mould := nofun
  tester _ := rfl
  unit _ := .refl _
  events _ := id
  members _ _ := id
  zones _ := .same rfl rfl rfl

/-- The evidence table changed in any way. -/
theorem onEvid_keeps (f : Evidence → Evidence) (s : State) : Keeps tablesOnly s (s.onEvid f) where
  variant := rfl
  board := rfl
  lines := rfl
  area := rfl
  pending := rfl
  queue := id
  tests := id
  timer _ := rfl
  front _ := rfl
  corr _ := rfl
  evid := nofun
  mould _ := rfl
  tester _ := rfl
  unit _ := .refl _
  events _ := id
  members _ _ := id
  zones := nofun

/-- The evidence table changed with its laws kept. -/
theorem onEvid_keeps' (f : Evidence → Evidence) (s : State) (h : ZonesKept s (s.onEvid f)) : Keeps evidenceOnly s (s.onEvid f) where
  variant := rfl
  board := rfl
  lines := rfl
  area := rfl
  pending := rfl
  queue := id
  tests := id
  timer _ := rfl
  front _ := rfl
  corr _ := rfl
  evid := nofun
  mould _ := rfl
  tester _ := rfl
  unit _ := .refl _
  events _ := id
  members _ _ := id
  zones _ := h

/-- The correlator changed in any way. -/
theorem onCorr_keeps (f : Correlator → Correlator) (s : State) : Keeps starting s (s.onCorr f) where
  variant := rfl
  board := rfl
  lines := rfl
  area := rfl
  pending := rfl
  queue := id
  tests := id
  timer _ := rfl
  front _ := rfl
  corr := nofun
  evid _ := rfl
  mould _ := rfl
  tester _ := rfl
  unit _ := .refl _
  events := nofun
  members := nofun
  zones _ := .same rfl rfl rfl

/-- The correlator changed with the laws of its list kept. -/
theorem onCorr_keeps' (f : Correlator → Correlator) (s : State) (h : EventsOk s.corr.events → EventsOk (f s.corr).events)
    (k : ∀ v, MembersFitted v s.corr.events → MembersFitted v (f s.corr).events) : Keeps acoustic s (s.onCorr f) where
  variant := rfl
  board := rfl
  lines := rfl
  area := rfl
  pending := rfl
  queue := id
  tests := id
  timer _ := rfl
  front _ := rfl
  corr := nofun
  evid _ := rfl
  mould _ := rfl
  tester _ := rfl
  unit _ := .refl _
  events _ := h
  members _ := k
  zones _ := .same rfl rfl rfl

theorem putPlace_keeps (c : ChannelNo) (x : HitPlace) (s : State) : Keeps acoustic s (s.putPlace c x) where
  variant := rfl
  board := rfl
  lines := rfl
  area := rfl
  pending := rfl
  queue := id
  tests := id
  timer _ := rfl
  front _ := rfl
  corr := nofun
  evid _ := rfl
  mould _ := rfl
  tester _ := rfl
  unit _ := .refl _
  events _ := id
  members _ _ := id
  zones _ := .same rfl rfl rfl

/-- A channel's record changed in a way that sets no base threshold. -/
theorem onChannel_keeps (c : ChannelNo) (f : Channel → Channel) (s : State) (h : ∀ x, (f x).base ≠ none → x.base ≠ none) :
    Keeps frontOnly s (s.onChannel c f) where
  variant := rfl
  board := rfl
  lines := rfl
  area := rfl
  pending := rfl
  queue := id
  tests := id
  timer _ := rfl
  front := nofun
  corr _ := rfl
  evid _ := rfl
  mould _ := rfl
  tester _ := rfl
  unit _ := .refl _
  events _ := id
  members _ _ := id
  zones _ := .of_eq rfl rfl rfl fun e d hd => by
    refine e d ?_
    simp only [State.channel, State.onChannel, Fin.getElem_fin, Vector.getElem_set] at hd ⊢
    split at hd
    · rename_i hc
      have hc' : c = d := Fin.ext hc
      subst hc'
      exact h _ hd
    · exact hd

/-- The test queue replaced by one that is no longer. -/
theorem setTester_keeps (ts : List Test) (s : State) (h : ts.length ≤ s.tester.length) : Keeps sounding s { s with tester := ts } where
  variant := rfl
  board := rfl
  lines := rfl
  area := rfl
  pending := rfl
  queue := id
  tests e := Nat.le_trans h e
  timer _ := rfl
  front _ := rfl
  corr _ := rfl
  evid _ := rfl
  mould _ := rfl
  tester := nofun
  unit _ := .refl _
  events _ := id
  members _ _ := id
  zones _ := .same rfl rfl rfl

theorem onTest_keeps (f : Test → Test) (s : State) : Keeps sounding s (s.onTest f) := by
  unfold State.onTest
  split
  · exact Keeps.refl _ _
  · rename_i h
    exact setTester_keeps _ _ (by simp [h])

/-- The tables changed with their zones left. -/
theorem onTables_keeps (f : Tables → Tables) (s : State) (h : ∀ x, (f x).zones = x.zones) : Keeps evidenceOnly s (s.onTables f) :=
  onEvid_keeps' _ _ (.of_eq rfl rfl
    (by simp only [State.onEvid]; cases s.evid.tables <;> simp [h]) id)

theorem onTallies_keeps (f : Tallies → Tallies) (s : State) : Keeps acoustic s (State.onTallies f s) :=
  onCorr_keeps' _ _ id (fun _ => id)

/-! ## The exchange unit's requests -/

/-- A job is added where the queue has room. -/
theorem addJob_keeps (b : JobBody) (s : State) (h : queueRoom s = true) : Keeps p s (addJob b s) where
  variant := rfl
  board := rfl
  lines := rfl
  area := rfl
  pending := rfl
  queue _ := by
    simp only [queueRoom, decide_eq_true_eq] at h
    simp only [QueueOk, addJob, List.length_append, List.length_cons, List.length_nil]
    omega
  tests := id
  timer _ := rfl
  front _ := rfl
  corr _ := rfl
  evid _ := rfl
  mould _ := rfl
  tester _ := rfl
  unit _ := ⟨rfl, rfl, rfl, rfl, rfl, rfl, rfl, rfl, rfl, rfl⟩
  events _ := id
  members _ _ := id
  zones _ := .same rfl rfl rfl

/-- A change of the exchange unit that leaves its own state and its queue. -/
theorem UnitSame.rfls {x y : Exchange} (h : y = { x with
      scan := y.scan, lastTaken := y.lastTaken, noticeMask := y.noticeMask, listSelection := y.listSelection, listLevel := y.listLevel
      nextJournal := y.nextJournal, nextLocated := y.nextLocated, consumedLocated := y.consumedLocated, accruals := y.accruals
      carry := y.carry, issue := y.issue, cells := y.cells, takeNumber := y.takeNumber, mirrorGeneration := y.mirrorGeneration
      strayEnable := y.strayEnable, queue := y.queue }) : UnitSame x y := by
  rw [h]; exact ⟨rfl, rfl, rfl, rfl, rfl, rfl, rfl, rfl, rfl, rfl⟩

theorem issueNext_keeps (s : State) : Keeps p s (issueNext s) := by
  unfold issueNext
  split
  · exact onXu_keeps _ _ (fun _ => .rfls rfl) (fun _ => rfl)
  · exact Keeps.refl _ _

theorem bumpJournal_keeps (s : State) : Keeps p s (bumpJournal s) := onXu_keeps _ _ (fun _ => .rfls rfl) (fun _ => rfl)

theorem bumpLocated_keeps (s : State) : Keeps p s (bumpLocated s) := onXu_keeps _ _ (fun _ => .rfls rfl) (fun _ => rfl)

theorem accrue_keeps (f : Half) (s : State) : Keeps p s (accrue f s) := onXu_keeps _ _ (fun _ => .rfls rfl) (fun _ => rfl)

theorem createCycleJob_keeps (r : CycleRecord) (s : State) (h : queueRoom s = true) : Keeps p s (createCycleJob r s) :=
  (addJob_keeps _ _ h).trans (bumpJournal_keeps _)

theorem createConditionJob_keeps (r : ConditionRecord) (s : State) (h : queueRoom s = true) : Keeps p s (createConditionJob r s) :=
  (addJob_keeps _ _ h).trans (bumpJournal_keeps _)

theorem createLocatedJob_keeps (r : LocatedOffer) (s : State) (h : queueRoom s = true) : Keeps p s (createLocatedJob r s) :=
  (addJob_keeps _ _ h).trans (bumpLocated_keeps _)

theorem requestMirror_keeps (s : State) : Keeps p s (requestMirror s) := by
  unfold requestMirror
  split
  · rename_i h
    simp only [Bool.and_eq_true] at h
    exact (onXu_keeps (fun x => { x with mirrorGeneration := s.xu.mirrorGeneration + 1 }) s (fun _ => .rfls rfl) (fun _ => rfl)).trans
      (addJob_keeps _ _ h.2)
  · exact Keeps.refl _ _

theorem resultGoesOn_keeps (k : CellNo) (take : Word) (h : Option OrderHead) (r : OrderResult) (s : State) :
    Keeps p s (resultGoesOn k take h r s) := by
  unfold resultGoesOn
  split
  · exact putCell_keeps _ _ _
  · split
    · rename_i h
      exact addJob_keeps _ _ h
    · exact putCell_keeps _ _ _

theorem giveResult_keeps (o : OrderRef) (r : OrderResult) (s : State) : Keeps p s (giveResult o r s) := by
  unfold giveResult
  split
  · split
    · exact resultGoesOn_keeps _ _ _ _ _
    · exact Keeps.refl _ _
  · exact Keeps.refl _ _

theorem placeWaiting_keeps (s : State) : Keeps p s (placeWaiting s) := by
  refine Keeps.foldl _ (fun s k => ?_) _ _
  split
  · split
    · rename_i h
      exact (putCell_keeps _ _ _).trans (addJob_keeps _ _ (by simp_all [queueRoom, State.putCell]))
    · exact Keeps.refl _ _
  · exact Keeps.refl _ _

theorem handCondition_keeps (k : Condition) (c : Option ChannelNo) (tick : Word) (s : State) :
    Keeps p s (handCondition k c tick s) := by
  unfold handCondition
  simp only
  split
  · rename_i h
    exact (accrue_keeps _ _).trans (createConditionJob_keeps _ _ (by simp_all))
  · exact accrue_keeps _ _

theorem offerLocated_keeps (r : LocatedOffer) (s : State) : Keeps p s (offerLocated r s) := by
  unfold offerLocated
  split
  · split
    · rename_i h
      exact createLocatedJob_keeps _ _ (by simp_all)
    · exact onXu_keeps _ _ (fun _ => .rfls rfl) (fun _ => rfl)
  · exact Keeps.refl _ _

theorem setCarry_keeps (c : Option CycleRecord) (s : State) : Keeps p s (setCarry c s) :=
  onXu_keeps _ _ (fun _ => .rfls rfl) (fun _ => rfl)

theorem room_of_recordRoom {s : State} (h : recordRoom s = true) : queueRoom s = true := by
  simp only [recordRoom, Bool.and_eq_true] at h
  exact h.2

theorem placeRecord_keeps (r : CycleRecord) (s : State) : Keeps p s (placeRecord r s) := by
  unfold placeRecord
  split
  · exact Keeps.refl _ _
  · split
    · split
      · rename_i h
        exact createCycleJob_keeps _ _ (room_of_recordRoom h)
      · exact setCarry_keeps _ _
    · rename_i c _
      split
      · rename_i h
        have k : Keeps p s (setCarry none (createCycleJob c s)) :=
          (createCycleJob_keeps c s (room_of_recordRoom h)).trans (setCarry_keeps _ _)
        simp only
        split
        · rename_i g
          exact k.trans (createCycleJob_keeps _ _ (room_of_recordRoom g))
        · exact k.trans (setCarry_keeps _ _)
      · exact setCarry_keeps _ _

theorem startScan_keeps (k : ScanKind) (s : State) : Keeps p s (startScan k s) := onXu_keeps _ _ (fun _ => .rfls rfl) (fun _ => rfl)

theorem askScan_keeps (k : ScanKind) (s : State) : Keeps p s (askScan k s) := by
  unfold askScan
  split
  · exact startScan_keeps _ _
  · exact onXu_keeps _ _ (fun _ => .rfls rfl) (fun _ => rfl)

theorem endScan_keeps (s : State) : Keeps p s (endScan s) := by
  unfold endScan
  split
  · exact startScan_keeps _ _
  · exact onXu_keeps _ _ (fun _ => .rfls rfl) (fun _ => rfl)

theorem treatCells_keeps (ks : List CellNo) (s : State) : Keeps p s (treatCells ks s) := by
  induction ks generalizing s with
  | nil => exact endScan_keeps s
  | cons k ks ih =>
    unfold treatCells
    simp only
    split
    · exact onXu_keeps _ _ (fun _ => .rfls rfl) (fun _ => rfl)
    · split
      · exact (putCell_keeps _ _ _).trans (ih _)
      · exact ih _

/-! ## The evidence table -/

theorem syncBlink_keeps (s : State) : Keeps evidenceOnly s (syncBlink s) := onEvid_keeps' _ _ (.of_eq rfl rfl rfl id)

theorem standTables_keeps (d : Description) (s : State) : Keeps tablesOnly s (standTables d s) :=
  (onEvid_keeps _ _).trans ((syncBlink_keeps _).mono rfl)

theorem discardTables_keeps (s : State) : Keeps evidenceOnly s (discardTables s) := by
  refine Keeps.trans (onEvid_keeps' (fun e => { e with tables := none }) s ⟨rfl, rfl, fun _ z hz => ?_, fun _ => rfl,
    fun _ _ => .inl rfl, fun i h => ?_, id⟩) (syncBlink_keeps _)
  · simp [zonesOf, State.onEvid] at hz
  · simp [CrackedAt, zonesOf, State.onEvid] at h

theorem loadContext_keeps (c : Machine.ContextRead) (s : State) : Keeps tablesOnly s (loadContext c s) :=
  (onEvid_keeps _ _).trans ((syncBlink_keeps _).mono rfl)

theorem clearZones_keeps (zone : Nat) (s : State) : Keeps tablesOnly s (clearZones zone s) :=
  (onEvid_keeps _ _).trans ((syncBlink_keeps _).mono rfl)

theorem evidenceClose_keeps (s : State) : Keeps tablesOnly s (evidenceClose s) :=
  (onEvid_keeps _ _).trans ((syncBlink_keeps _).mono rfl)

theorem zonesOf_onTables (f : Tables → Tables) (g : List ZoneEntry → List ZoneEntry) (s : State) (h : ∀ x, (f x).zones = g x.zones)
    (e : g [] = []) : zonesOf (s.onTables f) = g (zonesOf s) := by
  simp only [zonesOf, State.onTables, State.onEvid]
  cases s.evid.tables with
  | none => exact e.symm
  | some x => exact h x

/-- A LOCATED event leaves every verdict and keeps the scores in range. -/
theorem takeLocated_keeps (zone w a : Nat) (s : State) : Keeps evidenceOnly s (takeLocated zone w a s) := by
  have hz : zonesOf (takeLocated zone w a s) = (zonesOf s).modify zone (ZoneEntry.heard (zoneIncrement s zone w a)) :=
    zonesOf_onTables _ (fun z => z.modify zone (ZoneEntry.heard (zoneIncrement s zone w a))) s (fun _ => rfl) (by simp)
  have hv : ∀ i : Nat, (zonesOf (takeLocated zone w a s))[i]?.map (fun z => z.verdict) = (zonesOf s)[i]?.map (fun z => z.verdict) := by
    intro i
    rw [hz, List.getElem?_modify]
    cases (zonesOf s)[i]? with
    | none => rfl
    | some z => by_cases h : zone = i <;> simp [h, ZoneEntry.heard]
  have hp : (takeLocated zone w a s).evid.part = s.evid.part := rfl
  have hl : (takeLocated zone w a s).evid.stopLatch = s.evid.stopLatch := rfl
  have hb : BasesFitted s → BasesFitted (takeLocated zone w a s) := id
  refine onEvid_keeps' (fun e => { e with
    tables := e.tables.map fun t => { t with zones := t.zones.modify zone (ZoneEntry.heard (zoneIncrement s zone w a)) } }) s (show ZonesKept s (takeLocated zone w a s) from
    ⟨hp, hl, fun h z hm => ?_, fun h => ?_, fun i h => .inr ?_, fun i h => ?_, hb⟩)
  · rw [show zonesOf _ = _ from hz] at hm
    obtain ⟨i, hi⟩ := List.mem_iff_getElem?.1 hm
    rw [List.getElem?_modify] at hi
    cases hs : (zonesOf s)[i]? with
    | none => simp [hs] at hi
    | some y =>
      have hy := h y (List.mem_iff_getElem?.2 ⟨i, hs⟩)
      rw [hs] at hi
      by_cases e : zone = i
      · simp [e] at hi
        subst hi
        exact ⟨by simp [ZoneEntry.heard, satAdd], hy.2⟩
      · simp [e] at hi
        subst hi
        exact hy
  · simp [takeLocated, State.onTables, State.onEvid, h]
  · exact (hv i).trans h
  · exact (hv i).symm.trans h

theorem replaceVelocity_keeps (path v : Nat) (s : State) : Keeps evidenceOnly s (replaceVelocity path v s) :=
  onTables_keeps _ _ (fun _ => rfl)

/-! ## The correlator -/

theorem handOn_keeps (e : Event) (c : CloseCause) (k : EventClass) (s : State) : Keeps acoustic s (handOn e c k s) := by
  unfold handOn
  split
  · exact offerLocated_keeps _ _
  · exact ((takeLocated_keeps _ _ _ _).mono rfl).trans (offerLocated_keeps _ _)
  · exact Keeps.refl _ _

theorem closeEvent_keeps (e : Event) (c : CloseCause) (s : State) : Keeps acoustic s (closeEvent e c s) :=
  (onTallies_keeps _ _).trans (handOn_keeps _ _ _ _)

theorem removeEvent_keeps (n : Nat) (s : State) : Keeps acoustic s (removeEvent n s) :=
  onCorr_keeps' _ _
    (fun h => ⟨Nat.le_trans (List.length_filter_le _ _) h.1, fun e he => h.2 e (List.mem_filter.1 he).1⟩)
    (fun _ h e he => h e (List.mem_filter.1 he).1)

/-- An event of the list changed, its members' channels left. -/
theorem onEvent_keeps (n : Nat) (f : Event → Event) (s : State)
    (h : ∀ e, (f e).members.map (·.chan) = e.members.map (·.chan)) : Keeps acoustic s (onEvent n f s) := by
  have key : ∀ e ∈ s.corr.events.map (fun e => if e.serial = n then f e else e),
      ∃ x ∈ s.corr.events, e.members.map (·.chan) = x.members.map (·.chan) := by
    intro e he
    obtain ⟨x, hx, rfl⟩ := List.mem_map.1 he
    refine ⟨x, hx, ?_⟩
    split
    · exact h x
    · rfl
  refine onCorr_keeps' _ _ (fun o => ⟨by simpa using o.1, fun e he => ?_⟩) (fun v o e he m hm => ?_)
  · obtain ⟨x, hx, k⟩ := key e he
    rw [k]
    exact o.2 x hx
  · obtain ⟨x, hx, k⟩ := key e he
    have hc : m.chan ∈ x.members.map (·.chan) := k ▸ List.mem_map.2 ⟨m, hm, rfl⟩
    obtain ⟨y, hy, e'⟩ := List.mem_map.1 hc
    exact e' ▸ o x hx y hy

theorem cutEvents_keeps (s : State) : Keeps acoustic s (cutEvents s) :=
  (onCorr_keeps' _ _ (fun _ => ⟨Nat.zero_le _, fun _ h => absurd h (by simp)⟩) (fun _ _ _ h => absurd h (by simp))).trans
    (Keeps.foldl _ (fun s e => closeEvent_keeps e .cut s) _ _)

theorem openEvent_keeps (c : ChannelNo) (t : Word) (w : Nat) (s : State) : Keeps starting s (openEvent c t w s) :=
  (onCorr_keeps _ _).trans ((putPlace_keeps _ _ _).mono rfl)

theorem detach_keeps (e : Event) (s : State) : Keeps acoustic s (detach e s) := by
  refine Keeps.foldl _ (fun s m => ?_) _ _
  split
  · exact Keeps.refl _ _
  · exact putPlace_keeps _ _ _

theorem forceClose_keeps (s : State) : Keeps acoustic s (forceClose s) := by
  unfold forceClose
  split
  · exact Keeps.refl _ _
  · rename_i x xs h
    refine Keeps.trans (Keeps.trans ?_ (detach_keeps x _)) (closeEvent_keeps _ _ _)
    refine onCorr_keeps' _ _ (fun o => ?_) (fun v o e he => ?_)
    · rw [h] at o
      exact ⟨Nat.le_trans (Nat.le_succ _) o.1, fun e he => o.2 e (List.mem_cons_of_mem _ he)⟩
    · rw [h] at o
      exact o e (List.mem_cons_of_mem _ he)

theorem openNew_keeps (c : ChannelNo) (t : Word) (w : Nat) (s : State) : Keeps starting s (openNew c t w s) := by
  unfold openNew
  split
  · exact ((forceClose_keeps _).mono rfl).trans (openEvent_keeps _ _ _ _)
  · exact openEvent_keeps _ _ _ _

theorem corrHitStart_keeps (c : ChannelNo) (t : Word) (w : Nat) (s : State) : Keeps starting s (corrHitStart c t w s) := by
  unfold corrHitStart
  simp only
  refine Keeps.trans ((onTallies_keeps (fun x => { x with delivered := countUp x.delivered }) s).mono rfl) ?_
  split
  · exact (onCorr_keeps _ _).trans ((putPlace_keeps _ _ _).mono rfl)
  · exact openNew_keeps _ _ _ _

theorem closeIfEnded_keeps (n : Nat) (s : State) : Keeps acoustic s (closeIfEnded n s) := by
  unfold closeIfEnded
  split
  · exact Keeps.refl _ _
  · split
    · exact (removeEvent_keeps _ _).trans (closeEvent_keeps _ _ _)
    · exact Keeps.refl _ _

/-- A member's end leaves the channels of its event. -/
theorem filled_chans (c : ChannelNo) (h : HitEnd) (e : Event) :
    (Event.filled c h e).members.map (·.chan) = e.members.map (·.chan) := by
  simp only [Event.filled, List.map_map]
  apply List.map_congr_left
  intro m _
  simp only [Function.comp]
  split <;> rfl

theorem noteCorrEnd_keeps (c : ChannelNo) (h : HitEnd) (s : State) : Keeps acoustic s (noteCorrEnd c h s) := by
  unfold noteCorrEnd
  split
  · exact Keeps.refl _ _
  · exact (putPlace_keeps _ _ _).trans (onTallies_keeps _ _)
  · exact (putPlace_keeps _ _ _).trans (onEvent_keeps _ _ _ (filled_chans c h))

theorem corrHitEnd_keeps (c : ChannelNo) (h : HitEnd) (s : State) : Keeps acoustic s (corrHitEnd c h s) := by
  unfold corrHitEnd
  split
  · exact (noteCorrEnd_keeps _ _ _).trans (closeIfEnded_keeps _ _)
  · exact noteCorrEnd_keeps _ _ _

theorem meetDeadline_keeps (e : Event) (s : State) : Keeps acoustic s (meetDeadline e s) := by
  unfold meetDeadline
  split
  · exact (removeEvent_keeps _ _).trans (closeEvent_keeps _ _ _)
  · exact onEvent_keeps _ _ _ (fun _ => rfl)

/-! ### A hit start -/

/-- A forced close takes one event off the list, and an event's close takes none. -/
theorem closeEvent_events (e : Event) (c : CloseCause) (s : State) : (closeEvent e c s).corr.events = s.corr.events := by
  have h : ∀ (k : EventClass) (s : State), (handOn e c k s).corr = s.corr := by
    intro k s
    unfold handOn
    split
    · exact (offerLocated_keeps (p := exchangeOnly) _ _).corr rfl
    · exact ((offerLocated_keeps (p := exchangeOnly) _ _).corr rfl).trans ((takeLocated_keeps _ _ _ _).corr rfl)
    · rfl
  unfold closeEvent
  simp only
  rw [h]
  rfl

/-- The list after a forced close. -/
theorem forceClose_events (s : State) : (forceClose s).corr.events = s.corr.events.tail := by
  unfold forceClose
  split
  · rename_i h; simp [h]
  · rename_i x xs h
    rw [closeEvent_events, h]
    have : ∀ (ms : List Member) (s : State),
        (ms.foldl (fun s m => if m.ended.isSome then s else s.putPlace m.chan .detached) s).corr.events = s.corr.events := by
      intro ms
      induction ms with
      | nil => intro s; rfl
      | cons m ms ih =>
        intro s
        simp only [List.foldl_cons]
        rw [ih]
        split <;> rfl
    exact this _ _

/-- A hit start keeps the law of R51. -/
theorem corrHitStart_events (c : ChannelNo) (t : Word) (w : Nat) (s : State) (h : EventsOk s.corr.events) :
    EventsOk (corrHitStart c t w s).corr.events := by
  unfold corrHitStart
  simp only
  split
  · rename_i i hi
    have hi' := (List.findIdx?_eq_some_iff_getElem).1 hi
    obtain ⟨hl, ha, _⟩ := hi'
    simp only [State.putPlace, State.onCorr, State.onTallies] at hl ha ⊢
    refine ⟨by simpa using h.1, fun e he => ?_⟩
    obtain ⟨j, hj⟩ := List.mem_iff_getElem?.1 he
    rw [List.getElem?_modify] at hj
    cases hs : s.corr.events[j]? with
    | none => simp [hs] at hj
    | some x =>
      have hx := h.2 x (List.mem_iff_getElem?.2 ⟨j, hs⟩)
      rw [hs] at hj
      by_cases e' : i = j
      · subst e'
        simp at hj
        subst hj
        have hxi : s.corr.events[i] = x := by simpa [hl] using hs
        rw [hxi] at ha
        simp only [accepts, Bool.and_eq_true, Bool.not_eq_true', List.any_eq_false, decide_eq_true_eq] at ha
        simp only [Event.joined, newMember, List.map_append, List.map_cons, List.map_nil]
        refine List.nodup_append.2 ⟨hx, by simp, fun a ha' b hb => ?_⟩
        obtain ⟨m, hm, rfl⟩ := List.mem_map.1 ha'
        simp only [List.mem_singleton] at hb
        subst hb
        exact ha.1.2 m hm
      · simp [e'] at hj
        subst hj
        exact hx
  · unfold openNew
    have grow : ∀ u : State, u.corr.events.length < 32 → EventsOk u.corr.events → EventsOk (openEvent c t w u).corr.events := by
      intro u hu o
      refine ⟨by simp [openEvent, State.putPlace, State.onCorr, eventCapacity]; omega, fun e he => ?_⟩
      simp only [openEvent, State.putPlace, State.onCorr, List.mem_append, List.mem_singleton] at he
      rcases he with he | rfl
      · exact o.2 e he
      · simp [openedEvent]
    split
    · rename_i hc
      refine grow _ ?_ ((forceClose_keeps _).events rfl h)
      rw [forceClose_events, List.length_tail]
      have := h.1
      simp only [eventCapacity, State.onTallies, State.onCorr] at *
      omega
    · rename_i hc
      refine grow _ ?_ h
      simp only [eventCapacity] at hc
      omega

/-- A hit start on a channel of the variant keeps the members within it. -/
theorem corrHitStart_members (c : ChannelNo) (t : Word) (w : Nat) (v : Variant) (s : State) (hc : c.val < channelCount v)
    (h : MembersFitted v s.corr.events) : MembersFitted v (corrHitStart c t w s).corr.events := by
  unfold corrHitStart
  simp only
  split
  · rename_i i _
    intro e he m hm
    simp only [State.putPlace, State.onCorr, State.onTallies] at he
    obtain ⟨j, hj⟩ := List.mem_iff_getElem?.1 he
    rw [List.getElem?_modify] at hj
    cases hs : s.corr.events[j]? with
    | none => simp [hs] at hj
    | some x =>
      have hx := h x (List.mem_iff_getElem?.2 ⟨j, hs⟩)
      rw [hs] at hj
      by_cases e' : i = j
      · simp [e'] at hj
        subst hj
        simp only [Event.joined, newMember, List.mem_append, List.mem_singleton] at hm
        rcases hm with hm | rfl
        · exact hx m hm
        · exact hc
      · simp [e'] at hj
        subst hj
        exact hx m hm
  · unfold openNew
    have grow : ∀ u : State, MembersFitted v u.corr.events → MembersFitted v (openEvent c t w u).corr.events := by
      intro u o e he m hm
      simp only [openEvent, State.putPlace, State.onCorr, List.mem_append, List.mem_singleton] at he
      rcases he with he | rfl
      · exact o e he m hm
      · simp only [openedEvent, newMember, List.mem_singleton] at hm
        subst hm
        exact hc
    split
    · exact grow _ ((forceClose_keeps _).members rfl v h)
    · exact grow _ h

/-! ## Reports to the mould manager -/

theorem dropOrder_keeps (s : State) : Keeps mouldOnly s (dropOrder s) := onMould_keeps _ _

theorem answerOrder_keeps (r : OrderResult) (s : State) : Keeps p s (answerOrder r s) := by
  unfold answerOrder
  split
  · exact Keeps.refl _ _
  · exact giveResult_keeps _ _ _
  · exact giveResult_keeps _ _ _

theorem mountComplete_keeps (s : State) : Keeps mouldOnly s (mountComplete s) :=
  (((onMould_keeps _ _).trans (answerOrder_keeps _ _)).trans (onMould_keeps _ _)).trans (requestMirror_keeps _)

theorem mouldDerive_keeps (s : State) : Keeps mouldOnly s (mouldDerive s) := by
  unfold mouldDerive
  split
  · exact onMould_keeps _ _
  · exact onMould_keeps _ _
  · split
    · exact mountComplete_keeps _
    · exact Keeps.refl _ _
  · split
    · exact onMould_keeps _ _
    · exact Keeps.refl _ _
  · exact Keeps.refl _ _
  · exact Keeps.refl _ _

theorem mouldFollow_keeps (c : ChannelNo) (s : State) : Keeps mouldOnly s (mouldFollow c s) := by
  unfold mouldFollow
  split
  · exact mouldDerive_keeps _
  · exact Keeps.refl _ _

/-! ## The tester -/

theorem deliverOutsideAttempt_keeps (c : ChannelNo) (h : OpenHit) (s : State) : Keeps acoustic s (deliverOutsideAttempt c h s) := by
  unfold deliverOutsideAttempt
  split
  · exact corrHitEnd_keeps _ _ _
  · exact Keeps.refl _ _

theorem pulseSource_keeps (c : ChannelNo) (level : Nat) (s : State) : Keeps sounding s (pulseSource c level s) := by
  unfold pulseSource
  simp only
  refine Keeps.trans ?_ ((mouldFollow_keeps _ _).mono rfl)
  refine Keeps.trans ?_ ((onChannel_keeps _ _ _ (by exact fun _ h => h)).mono rfl)
  split
  · exact (onChannel_keeps _ _ _ (by exact fun _ h => h)).mono rfl
  · exact ((onChannel_keeps _ _ _ (by exact fun _ h => h)).mono rfl).trans ((deliverOutsideAttempt_keeps _ _ _).mono rfl)

theorem releaseSource_keeps (c : ChannelNo) (s : State) : Keeps { front := true, mould := true } s (releaseSource c s) := by
  unfold releaseSource
  split
  · exact ((onChannel_keeps _ _ _ (by exact fun _ h => h)).mono rfl).trans ((mouldFollow_keeps _ _).mono rfl)
  · exact Keeps.refl _ _

theorem clearRoute_keeps (c : ChannelNo) (s : State) : Keeps frontOnly s (clearRoute c s) := onChannel_keeps _ _ _ (by exact fun _ h => h)

theorem clearRoutes_keeps (ps : List Partner) (s : State) : Keeps frontOnly s (clearRoutes ps s) := by
  refine Keeps.foldl _ (fun s x => ?_) _ _
  split
  · exact clearRoute_keeps _ _
  · exact Keeps.refl _ _

theorem setRoutes_keeps (w : Word) (ps : List Partner) (s : State) : Keeps frontOnly s (setRoutes w ps s) := by
  refine Keeps.foldl _ (fun s x => ?_) _ _
  split
  · exact onChannel_keeps _ _ _ (by exact fun _ h => h)
  · exact Keeps.refl _ _

theorem applyVelocities_keeps (ps : List Partner) (s : State) : Keeps evidenceOnly s (applyVelocities ps s) := by
  refine Keeps.foldl _ (fun s x => ?_) _ _
  split
  · exact replaceVelocity_keeps _ _ _
  · exact Keeps.refl _ _

theorem endTest_keeps (how : TestEnd) (t : Test) (s : State) : Keeps evidenceOnly s (endTest how t s) := by
  unfold endTest
  simp only
  split
  · exact ((applyVelocities_keeps _ _).trans (accrue_keeps _ _)).trans (giveResult_keeps _ _ _)
  · exact (accrue_keeps _ _).trans (giveResult_keeps _ _ _)

theorem dropHead_keeps (s : State) : Keeps sounding s (dropHead s) := setTester_keeps _ _ (by simp)

theorem driveAttempt_keeps (t : Test) (s : State) : Keeps sounding s (driveAttempt t s) :=
  ((pulseSource_keeps _ _ _).trans ((setRoutes_keeps _ _ _).mono rfl)).trans (onTest_keeps _ _)

theorem judgeHead_keeps (n : Nat) (s : State) : Keeps sounding s (judgeHead n s) := by
  induction n generalizing s with
  | zero => exact Keeps.refl _ _
  | succ n ih =>
    unfold judgeHead
    split
    · exact Keeps.refl _ _
    · split
      · exact Keeps.refl _ _
      · split
        · exact (((endTest_keeps _ _ _).mono rfl).trans (dropHead_keeps _)).trans (ih _)
        · split
          · simp only
            split
            · exact driveAttempt_keeps _ _
            · exact (((endTest_keeps _ _ _).mono rfl).trans (dropHead_keeps _)).trans (ih _)
          · exact Keeps.refl _ _

theorem judgeQueue_keeps (s : State) : Keeps sounding s (judgeQueue s) := judgeHead_keeps _ _

theorem judgeAttempt_keeps (s : State) : Keeps sounding s (judgeAttempt s) := by
  unfold judgeAttempt
  split
  · exact Keeps.refl _ _
  · simp only
    split
    · exact (((endTest_keeps _ _ _).mono rfl).trans (dropHead_keeps _)).trans (judgeQueue_keeps _)
    · exact onTest_keeps _ _

theorem testHitStart_keeps (c : ChannelNo) (w : Word) (s : State) : Keeps sounding s (testHitStart c w s) := onTest_keeps _ _

theorem noteHitEnd_keeps (c : ChannelNo) (h : HitEnd) (s : State) : Keeps sounding s (noteHitEnd c h s) := onTest_keeps _ _

theorem testHitEnd_keeps (c : ChannelNo) (h : HitEnd) (s : State) : Keeps sounding s (testHitEnd c h s) := by
  unfold testHitEnd
  simp only
  split
  · exact (noteHitEnd_keeps _ _ _).trans (judgeAttempt_keeps _)
  · exact noteHitEnd_keeps _ _ _

theorem endAttemptTick_keeps (t : Test) (s : State) : Keeps sounding s (endAttemptTick t s) := by
  unfold endAttemptTick
  simp only
  refine Keeps.trans (((releaseSource_keeps t.source s).mono rfl).trans ((clearRoutes_keeps t.partners _).mono rfl)) ?_
  split
  · exact onTest_keeps _ _
  · exact judgeAttempt_keeps _

theorem forgetAttempt_keeps (s : State) : Keeps sounding s (forgetAttempt s) := by
  unfold forgetAttempt
  split
  · exact Keeps.refl _ _
  · exact ((clearRoutes_keeps _ _).mono rfl).trans (onTest_keeps _ _)

theorem releaseHead_keeps (s : State) : Keeps { front := true, mould := true } s (releaseHead s) := by
  unfold releaseHead
  split
  · exact Keeps.refl _ _
  · exact releaseSource_keeps _ _

theorem testerClose_keeps (s : State) : Keeps sounding s (testerClose s) := (forgetAttempt_keeps _).trans (onTest_keeps _ _)

theorem abortTests_keeps (s : State) : Keeps sounding s (abortTests s) := by
  unfold abortTests
  simp only
  refine Keeps.trans ((forgetAttempt_keeps s).trans ((releaseHead_keeps _).mono rfl)) ?_
  exact (setTester_keeps _ _ (Nat.zero_le _)).trans (Keeps.foldl _ (fun s x => (endTest_keeps .aborted x s).mono rfl) _ _)

theorem testerFollow_keeps (c : ChannelNo) (s : State) : Keeps sounding s (testerFollow c s) := by
  unfold testerFollow
  split
  · exact Keeps.refl _ _
  · split
    · exact ((((clearRoutes_keeps _ _).mono rfl).trans ((endTest_keeps _ _ _).mono rfl)).trans (dropHead_keeps _)).trans
        (judgeQueue_keeps _)
    · exact Keeps.refl _ _

/-! ## The channel front end -/

/-- A hit's start, with what the channels and the tester may change. -/
def soundingStart : Parts := { front := true, corr := true, evid := true, mould := true, tester := true, start := true }

theorem deliverStart_keeps (c : ChannelNo) (h : OpenHit) (s : State) : Keeps soundingStart s (deliverStart c h s) := by
  unfold deliverStart
  split
  · exact (corrHitStart_keeps _ _ _ _).mono rfl
  · exact (testHitStart_keeps _ _ _).mono rfl

theorem startHit_keeps (c : ChannelNo) (b a : Nat) (s : State) : Keeps soundingStart s (startHit c b a s) :=
  ((onChannel_keeps _ _ _ (by exact fun _ h => h)).mono rfl).trans (deliverStart_keeps _ _ _)

/-- A hit's start keeps the law of R51, and on a channel of the variant the members within it. -/
theorem startHit_events (c : ChannelNo) (b a : Nat) (s : State) (h : EventsOk s.corr.events) :
    EventsOk (startHit c b a s).corr.events := by
  unfold startHit deliverStart
  simp only
  split
  · exact corrHitStart_events _ _ _ _ h
  · exact (testHitStart_keeps _ _ _).events rfl h

theorem startHit_members (c : ChannelNo) (b a : Nat) (v : Variant) (s : State) (hc : c.val < channelCount v)
    (h : MembersFitted v s.corr.events) : MembersFitted v (startHit c b a s).corr.events := by
  unfold startHit deliverStart
  simp only
  split
  · exact corrHitStart_members _ _ _ _ _ hc h
  · exact (testHitStart_keeps _ _ _).members rfl v h

theorem deliverEnd_keeps (j : Bool) (c : ChannelNo) (r : Receiver) (e : HitEnd) (s : State) :
    Keeps sounding s (deliverEnd j c r e s) := by
  unfold deliverEnd
  split
  · split
    · exact (noteCorrEnd_keeps _ _ _).mono rfl
    · exact (corrHitEnd_keeps _ _ _).mono rfl
  · split
    · exact noteHitEnd_keeps _ _ _
    · exact testHitEnd_keeps _ _ _

theorem afterHit_base (h : OpenHit) (x : Channel) : (x.afterHit h).base = x.base := by
  unfold Channel.afterHit
  split <;> rfl

theorem endHit_keeps (c : ChannelNo) (h : OpenHit) (long : Bool) (s : State) : Keeps sounding s (endHit c h long s) :=
  ((onChannel_keeps _ _ _ (fun x e => afterHit_base h x ▸ e)).mono rfl).trans (deliverEnd_keeps _ _ _ _ _)

theorem cutHit_keeps (j : Bool) (f : Channel → Channel) (c : ChannelNo) (s : State) (k : ∀ x, (f x).base = x.base) :
    Keeps sounding s (cutHit j f c s) := by
  unfold cutHit
  split
  · exact Keeps.refl _ _
  · exact ((onChannel_keeps _ _ _ (fun x e => by rw [k] at e; exact e)).mono rfl).trans (deliverEnd_keeps _ _ _ _ _)

theorem cutHits_keeps (s : State) : Keeps sounding s (cutHits s) :=
  Keeps.foldl _ (fun s c => cutHit_keeps true Channel.armed c s (fun _ => rfl)) _ _

theorem biasOn1_keeps (code : Nat) (c : ChannelNo) (s : State) : Keeps { front := true, mould := true } s (biasOn1 code c s) := by
  unfold biasOn1
  split
  · exact ((onChannel_keeps _ _ _ (by exact fun _ h => h)).mono rfl).trans ((mouldFollow_keeps _ _).mono rfl)
  · exact ((onChannel_keeps _ _ _ (by exact fun _ h => h)).mono rfl).trans ((mouldFollow_keeps _ _).mono rfl)
  · exact Keeps.refl _ _

theorem biasOff1_keeps (c : ChannelNo) (s : State) : Keeps sounding s (biasOff1 c s) := by
  unfold biasOff1
  simp only
  refine (cutHit_keeps false Channel.idled c s (fun _ => rfl)).trans ?_
  split
  · exact Keeps.refl _ _
  · exact ((onChannel_keeps _ _ _ (by exact fun _ h => h)).mono rfl).trans ((mouldFollow_keeps _ _).mono rfl)

theorem faultChannel_keeps (c : ChannelNo) (s : State) : Keeps sounding s (faultChannel c s) := by
  unfold faultChannel
  simp only
  refine Keeps.trans ?_ (testerFollow_keeps _ _)
  exact (((onChannel_keeps _ _ _ (by exact fun _ h => h)).mono rfl).trans ((mouldFollow_keeps _ _).mono rfl)).trans (handCondition_keeps _ _ _ _)

theorem overload_keeps (c : ChannelNo) (s : State) : Keeps sounding s (overload c s) :=
  (cutHit_keeps false Channel.idled c s (fun _ => rfl)).trans (faultChannel_keeps _ _)

theorem settleChannel_keeps (c : ChannelNo) (ua : Nat) (s : State) : Keeps sounding s (settleChannel c ua s) := by
  by_cases h : ua ≤ biasLimit
  · rw [settleChannel, if_pos h]
    exact ((onChannel_keeps c (fun ch => { ch with state := .live, settle := none }.armed) s (fun _ h => h)).mono rfl).trans
      ((mouldFollow_keeps _ _).mono rfl)
  · rw [settleChannel, if_neg h]
    exact faultChannel_keeps _ _

theorem biasOnUsed_keeps (s : State) : Keeps { front := true, mould := true } s (biasOnUsed s) :=
  Keeps.foldl _ (fun t c => biasOn1_keeps _ c t) _ _

theorem biasOffUsed_keeps (s : State) : Keeps sounding s (biasOffUsed s) := Keeps.foldl _ (fun t c => biasOff1_keeps c t) _ _

theorem unsetThresholds_keeps (s : State) : Keeps frontOnly s (unsetThresholds s) :=
  Keeps.foldl _ (fun t c => onChannel_keeps c _ t (fun _ h => absurd rfl h)) _ _

/-! ## The mould manager -/

theorem leaveMould_keeps (s : State) : Keeps leaving s (leaveMould s) :=
  (((discardTables_keeps _).mono rfl).trans ((unsetThresholds_keeps _).mono rfl)).trans ((onMould_keeps _ _).mono rfl)

theorem endOrder_keeps (r : OrderResult) (s : State) : Keeps leaving s (endOrder r s) :=
  ((leaveMould_keeps _).trans (answerOrder_keeps _ _)).trans ((dropOrder_keeps _).mono rfl)

theorem leaveWithMirror_keeps (s : State) : Keeps leaving s (leaveWithMirror s) := (leaveMould_keeps _).trans (requestMirror_keeps _)

theorem completeDismount_keeps (r : OrderResult) (s : State) : Keeps leaving s (completeDismount r s) :=
  (endOrder_keeps _ _).trans (requestMirror_keeps _)

theorem createSave_keeps (b : SavedBy) (s : State) (h : queueRoom s = true) : Keeps mouldOnly s (createSave b s) :=
  (onMould_keeps _ _).trans (addJob_keeps _ _ h)

/-- A save is created only where the queue has room. -/
theorem room_of_created {s : State} (h : saveAnswer s = .created) : queueRoom s = true := by
  unfold saveAnswer at h
  split at h
  · simp at h
  · split at h
    · assumption
    · simp at h

theorem holdSave_keeps (b : SavedBy) (s : State) : Keeps mouldOnly s (holdSave b s) := onMould_keeps _ _

theorem offerSave_keeps (b : SavedBy) (s : State) : Keeps leaving s (offerSave b s) := by
  unfold offerSave
  split
  · rename_i h
    exact ((createSave_keeps _ _ (room_of_created h)).mono rfl).trans (leaveWithMirror_keeps _)
  · rename_i h _
    exact (createSave_keeps _ _ (room_of_created h)).mono rfl
  · exact (holdSave_keeps _ _).mono rfl
  · exact (holdSave_keeps _ _).mono rfl
  · exact completeDismount_keeps _ _
  · exact leaveWithMirror_keeps _

theorem offerPending_keeps (s : State) : Keeps leaving s (offerPending s) := by
  unfold offerPending
  split
  · exact offerSave_keeps _ _
  · exact offerSave_keeps _ _
  · exact Keeps.refl _ _

theorem offerCheckpoint_keeps (s : State) : Keeps leaving s (offerCheckpoint s) := by
  unfold offerCheckpoint
  split
  · exact offerSave_keeps _ _
  · exact Keeps.refl _ _

theorem saveEnded_keeps (b : SavedBy) (w : Bool) (s : State) : Keeps leaving s (saveEnded b w s) := by
  unfold saveEnded
  split
  · exact completeDismount_keeps _ _
  · exact Keeps.refl _ _

theorem cutRequest_keeps (s : State) : Keeps sounding s (cutRequest s) := (cutHits_keeps _).trans ((cutEvents_keeps _).mono rfl)

theorem enterSettling_keeps (s : State) : Keeps { front := true, mould := true } s (enterSettling s) :=
  ((onMould_keeps _ _).mono rfl).trans (biasOnUsed_keeps _)

theorem enterClampWait_keeps (s : State) : Keeps { front := true, mould := true } s (enterClampWait s) := by
  unfold enterClampWait
  split
  · exact ((onMould_keeps _ _).mono rfl).trans (enterSettling_keeps _)
  · exact (onMould_keeps _ _).mono rfl

theorem mountTimeout_keeps (s : State) : Keeps sounding s (mountTimeout s) :=
  (biasOffUsed_keeps _).trans ((endOrder_keeps _ _).mono rfl)

theorem cancelReading_keeps (s : State) : Keeps leaving s (cancelReading s) := by
  unfold cancelReading
  split
  · exact endOrder_keeps _ _
  · exact Keeps.refl _ _

theorem clampLocks_keeps (s : State) : Keeps { front := true, mould := true } s (clampLocks s) := by
  unfold clampLocks
  split
  · exact enterSettling_keeps _
  · exact (handCondition_keeps _ _ _ _).trans (biasOnUsed_keeps _)
  · exact Keeps.refl _ _

theorem suspend_keeps (s : State) :
    Keeps sounding s
      (mouldCondition .clampOpen (biasOffUsed (abortTests (cutRequest (s.onMould fun m => { m with state := .suspended }))))) :=
  (((((onMould_keeps _ _).mono rfl).trans (cutRequest_keeps _)).trans (abortTests_keeps _)).trans (biasOffUsed_keeps _)).trans
    (handCondition_keeps _ _ _ _)

theorem clampUnlocks_keeps (s : State) : Keeps sounding s (clampUnlocks s) := by
  unfold clampUnlocks
  split
  · exact suspend_keeps s
  · exact suspend_keeps s
  · exact ((onMould_keeps _ _).mono rfl).trans (biasOffUsed_keeps _)
  · exact (biasOffUsed_keeps _).trans (handCondition_keeps _ _ _ _)
  · exact Keeps.refl _ _

theorem mouldCondition_keeps (k : Condition) (s : State) : Keeps p s (mouldCondition k s) := handCondition_keeps _ _ _ _

theorem quiet_keeps (s : State) : Keeps sounding s (biasOffUsed (abortTests (cutRequest s))) :=
  ((cutRequest_keeps s).trans (abortTests_keeps (cutRequest s))).trans (biasOffUsed_keeps (abortTests (cutRequest s)))

theorem pullMould_keeps (s : State) : Keeps sounding s (pullMould s) := (quiet_keeps s).trans (mouldCondition_keeps _ _)

theorem leaveByPull_keeps (s : State) :
    Keeps sounding s (offerSave .unplanned ((pullMould s).onMould fun m => { m with state := .dismounting, pendingSave := none })) :=
  ((pullMould_keeps _).trans ((onMould_keeps _ _).mono rfl)).trans ((offerSave_keeps _ _).mono rfl)

theorem mouldPulled_keeps (s : State) : Keeps sounding s (mouldPulled s) := by
  unfold mouldPulled
  split
  · exact (pullMould_keeps _).trans ((endOrder_keeps _ _).mono rfl)
  · exact leaveByPull_keeps s
  · exact leaveByPull_keeps s
  · exact leaveByPull_keeps s
  · exact Keeps.refl _ _
  · exact Keeps.refl _ _

theorem cancelMount_keeps (o : OrderRef) (s : State) : Keeps sounding s (cancelMount o s) :=
  (((biasOffUsed_keeps _).trans ((endOrder_keeps _ _).mono rfl)).trans (giveResult_keeps _ _ _)).trans (requestMirror_keeps _)

theorem dismountMould_keeps (o : OrderRef) (s : State) : Keeps sounding s (dismountMould o s) := by
  unfold dismountMould
  simp only
  refine Keeps.trans ((onMould_keeps (fun m => { m with state := .dismounting, order := .dismount o, pendingSave := none }) s).mono
    (q := sounding) rfl) ?_
  generalize State.onMould _ s = u
  exact (quiet_keeps u).trans ((offerSave_keeps .dismount _).mono rfl)

theorem takeDismount_keeps (o : OrderRef) (s : State) : Keeps sounding s (takeDismount o s) := by
  unfold takeDismount
  split
  · exact giveResult_keeps _ _ _
  · exact giveResult_keeps _ _ _
  · exact cancelMount_keeps _ _
  · exact dismountMould_keeps _ _
  · exact dismountMould_keeps _ _
  · exact dismountMould_keeps _ _

theorem takeMount_keeps (o : OrderRef) (off : Nat) (fresh : Bool) (s : State) : Keeps mouldOnly s (takeMount o off fresh s) := by
  unfold takeMount
  split
  · exact giveResult_keeps _ _ _
  · exact onMould_keeps _ _

theorem takeFixed_keeps (f : FixedPart) (s : State) : Keeps leaving s (takeFixed f s) := by
  unfold takeFixed
  simp only
  split
  · exact ((onMould_keeps _ _).trans (onMould_keeps _ _)).mono rfl
  · exact ((onMould_keeps _ _).mono rfl).trans (endOrder_keeps _ _)

/-- A channel's record changed in any way. -/
theorem onChannel_keeps' (c : ChannelNo) (f : Channel → Channel) (s : State) :
    Keeps { front := true, tables := true } s (s.onChannel c f) where
  variant := rfl
  board := rfl
  lines := rfl
  area := rfl
  pending := rfl
  queue := id
  tests := id
  timer _ := rfl
  front := nofun
  corr _ := rfl
  evid _ := rfl
  mould _ := rfl
  tester _ := rfl
  unit _ := .refl _
  events _ := id
  members _ _ := id
  zones := nofun

theorem setThresholds_keeps (cs : List ChannelSpec) (s : State) : Keeps { front := true, tables := true } s (setThresholds cs s) :=
  Keeps.foldl _ (fun t _ => onChannel_keeps' _ _ t) _ _

theorem adoptDescription_keeps (d : Description) (s : State) : Keeps building s (adoptDescription d s) :=
  (((onMould_keeps _ _).mono rfl).trans ((setThresholds_keeps _ _).mono rfl)).trans ((standTables_keeps _ _).mono rfl)

theorem takeDescription_keeps (d : Description) (s : State) : Keeps building s (takeDescription d s) := by
  unfold takeDescription
  simp only
  split
  · exact ((onMould_keeps _ _).mono rfl).trans ((endOrder_keeps _ _).mono rfl)
  · refine Keeps.trans (((onMould_keeps (fun m => { m with read := .none }) s).mono rfl).trans (adoptDescription_keeps d _)) ?_
    split
    · exact (enterClampWait_keeps _).mono rfl
    · exact (onMould_keeps _ _).mono rfl

theorem takeContext_keeps (c : Machine.ContextRead) (s : State) : Keeps building s (takeContext c s) := by
  unfold takeContext
  simp only
  split
  · exact (((onMould_keeps _ _).trans (onMould_keeps _ _)).mono rfl).trans ((enterClampWait_keeps _).mono rfl)
  · exact ((((onMould_keeps _ _).mono rfl).trans ((loadContext_keeps _ _).mono rfl)).trans ((onMould_keeps _ _).mono rfl)).trans
      ((enterClampWait_keeps _).mono rfl)

theorem mouldClose_keeps (s : State) : Keeps mouldOnly s (mouldClose s) := by
  unfold mouldClose
  split
  · exact onMould_keeps _ _
  · exact Keeps.refl _ _

end Sys2Proof.Machine
end

