-- ==== Sys2Proof/Laws/KeepsArea.lean ====
section
/-! SUPPORT. What the exchange unit's own sequences and the cycle close can change, over the relation `Keeps`. -/

namespace Sys2Proof.Machine

open Sys2Proof

variable {p q : Parts} {s t u : State}

/-- The exchange unit's own state. -/
def unitOnly : Parts := { unit := true }

/-- The mould manager's leaving, with the exchange unit's own state. -/
def leavingUnit : Parts := { front := true, evid := true, mould := true, unit := true }

/-- The exchange unit changed in any way that makes its queue no longer. -/
theorem onUnit_keeps (f : Exchange → Exchange) (s : State) (h : (f s.xu).queue.length ≤ s.xu.queue.length) :
    Keeps unitOnly s (s.onXu f) where
  variant := rfl
  board := rfl
  lines := rfl
  area := rfl
  pending := rfl
  queue e := Nat.le_trans h e
  tests := id
  timer _ := rfl
  front _ := rfl
  corr _ := rfl
  evid _ := rfl
  mould _ := rfl
  tester _ := rfl
  unit := nofun
  events _ := id
  members _ _ := id
  zones _ := .same rfl rfl rfl

theorem evaluateAttn_keeps (s : State) : Keeps unitOnly s (evaluateAttn s) := onUnit_keeps _ _ (Nat.le_refl _)

/-! ## Job ends -/

theorem popJob_keeps (s : State) : Keeps unitOnly s (popJob s) := onUnit_keeps _ _ (by simp)

theorem noteWritten_keeps (b : JobBody) (s : State) : Keeps unitOnly s (noteWritten b s) := by
  unfold noteWritten
  split
  · split
    · exact onUnit_keeps _ _ (Nat.le_refl _)
    · exact Keeps.refl _ _
  · split
    · exact onUnit_keeps _ _ (Nat.le_refl _)
    · exact Keeps.refl _ _
  · exact Keeps.refl _ _

theorem attnAfterJob_keeps (b : JobBody) (s : State) : Keeps unitOnly s (attnAfterJob b s) := by
  unfold attnAfterJob
  split
  · exact evaluateAttn_keeps _
  · exact evaluateAttn_keeps _
  · exact evaluateAttn_keeps _
  · exact evaluateAttn_keeps _
  · exact Keeps.refl _ _
  · exact Keeps.refl _ _

theorem reportSave_keeps (b : JobBody) (w : Bool) (s : State) : Keeps leaving s (reportSave b w s) := by
  unfold reportSave
  split
  · exact saveEnded_keeps _ _ _
  · exact Keeps.refl _ _

theorem jobDone_keeps (b : JobBody) (s : State) : Keeps leavingUnit s (jobDone b s) :=
  (((((((popJob_keeps s).trans (noteWritten_keeps b _)).trans (attnAfterJob_keeps b _)).trans (placeWaiting_keeps _)).mono rfl).trans
    ((reportSave_keeps b true _).mono rfl)).trans ((offerPending_keeps _).mono rfl)).trans (issueNext_keeps _)

theorem settleEntry_keeps (k : CellNo) (w : Word) (e : CellEntry) (s : State) : Keeps p s (settleEntry k w e s) := by
  unfold settleEntry
  split
  · split
    · exact putCell_keeps _ _ _
    · exact Keeps.refl _ _
  · exact Keeps.refl _ _

theorem jobFailed_keeps (s : State) : Keeps leavingUnit s (jobFailed s) := by
  unfold jobFailed
  split
  · exact Keeps.refl _ _
  · simp only
    refine Keeps.trans ((popJob_keeps s).mono rfl) ?_
    split
    · exact settleEntry_keeps _ _ _ _
    · exact (saveEnded_keeps _ _ _).mono rfl
    · exact Keeps.refl _ _

theorem areaChanged_keeps (s : State) : Keeps leaving s (areaChanged s) := offerPending_keeps s

/-! ## Scans -/

theorem abandonScan_keeps (s : State) : Keeps p s (abandonScan s) := onXu_keeps _ _ (fun _ => .rfls rfl) (fun _ => rfl)

theorem scanTo_keeps (x : ScanPhase) (s : State) : Keeps p s (scanTo x s) := onXu_keeps _ _ (fun _ => .rfls rfl) (fun _ => rfl)

/-- The blocks that a programme's delivery reaches. -/
def delivered : Parts := { timer := true, front := true, evid := true, mould := true, tables := true }

theorem deliverProgramme_keeps (x : Programme) (s : State) : Keeps delivered s (deliverProgramme x s) where
  variant := rfl
  board := rfl
  lines := rfl
  area := rfl
  pending := rfl
  queue := id
  tests := id
  timer := nofun
  front := nofun
  corr _ := rfl
  evid := nofun
  mould := nofun
  tester _ := rfl
  unit _ := ⟨rfl, rfl, rfl, rfl, rfl, rfl, rfl, rfl, rfl, rfl⟩
  events _ := id
  members _ _ := id
  zones := nofun

theorem takePage_keeps (page : List Byte) (s : State) : Keeps delivered s (takePage page s) :=
  ((((deliverProgramme_keeps _ s).trans (accrue_keeps _ _)).trans
    (onXu_keeps (fun x => { x with lastTaken := some x.scan.generation }) _ (fun _ => .rfls rfl) (fun _ => rfl))).trans
      (useFree_keeps _)).trans (scanTo_keeps _ _)

/-- Cells treated leave everything but the attention level. -/
theorem treatBoard_keeps (ks : List CellNo) (s : State) : Keeps unitOnly s (treatBoard ks s) :=
  (treatCells_keeps ks s).trans (evaluateAttn_keeps _)

/-- Cells treated leave the exchange unit's own state but for the attention level, which is evaluated afresh (R166). -/
theorem treatBoard_unit {x : Exchange} (ks : List CellNo) (s : State) (h : UnitSame x s.xu) :
    ∃ b, UnitSame { x with attn := b } (treatBoard ks s).xu ∧ (b = x.attn ∨ b = attnLevel (treatBoard ks s).xu) :=
  have t := h.trans ((treatCells_keeps (p := exchangeOnly) ks s).unit rfl)
  ⟨attnLevel (treatBoard ks s).xu, ⟨t.en, t.area, t.enabling, rfl, t.geometry, t.baseL, t.baseH, t.checkCode, t.consumedJournal,
    t.lastNoticed⟩, .inr rfl⟩

/-- An order's run keeps what its owner keeps, but for the attention level. -/
theorem runOrder_keeps (h : OrderHead) (owner : OrderRef → State → State) (k : ∀ o s, Keeps p s (owner o s))
    (w : unitOnly.within p = true) (s : State) : Keeps p s (runOrder h owner s) := by
  unfold runOrder
  split
  · split
    · exact endScan_keeps _
    · exact ((putCell_keeps _ _ _).trans (k _ _)).trans ((treatBoard_keeps _ _).mono w)
  · exact Keeps.refl _ _

/-- An order's run, with an owner that leaves the exchange unit's own state, leaves it too but for the attention level: the level
stands, or is evaluated on the same area, geometry and consumed sequence (R166). -/
theorem runOrder_unit (h : OrderHead) (owner : OrderRef → State → State) (k : ∀ o s, UnitSame s.xu (owner o s).xu) (s : State) :
    ∃ b, UnitSame { s.xu with attn := b } (runOrder h owner s).xu
      ∧ (b = s.xu.attn ∨ b = attnLevel (runOrder h owner s).xu) := by
  unfold runOrder
  split
  · split
    · exact ⟨_, (endScan_keeps (p := exchangeOnly) s).unit rfl, .inl rfl⟩
    · exact treatBoard_unit _ _ (((putCell_keeps (p := exchangeOnly) _ _ s).unit rfl).trans (k _ _))
  · exact ⟨_, .refl _, .inl rfl⟩

/-! ## Enable, disable and bus errors -/

theorem fixHeader_keeps (bs : List Byte) (s : State) : Keeps unitOnly s (fixHeader bs s) := onUnit_keeps _ _ (Nat.le_refl _)

theorem abandonEnable_keeps (s : State) : Keeps unitOnly s (abandonEnable s) := onUnit_keeps _ _ (Nat.le_refl _)

theorem checkHeader_keeps (bs : List Byte) (s : State) : Keeps leavingUnit s (checkHeader bs s) := by
  unfold checkHeader
  split
  · exact ((fixHeader_keeps _ _).trans (onUnit_keeps _ _ (Nat.le_refl _))).mono rfl
  · exact ((onUnit_keeps (fun x => { x with area := .headerInvalid, checkCode := headerCode bs, enabling := .none }) s
      (Nat.le_refl _)).mono rfl).trans ((areaChanged_keeps _).mono rfl)

theorem becomeActive_keeps (w : BusWrite) (s : State) : Keeps leavingUnit (s.land w) (becomeActive w s) := by
  unfold becomeActive
  simp only
  refine Keeps.trans ((onUnit_keeps (fun x => { x with area := .active, enabling := .none }) (s.land w) (Nat.le_refl _)).mono rfl) ?_
  generalize State.onXu _ (s.land w) = u
  exact (((areaChanged_keeps u).mono rfl).trans ((evaluateAttn_keeps _).mono rfl)).trans (askScan_keeps _ _)

theorem reportDiscarded_keeps (js : List Job) (s : State) : Keeps leaving s (reportDiscarded js s) :=
  Keeps.foldl _ (fun s (j : Job) => reportSave_keeps j.body false s) _ _

theorem clearUnit_queue (x : Exchange) : (clearUnit x).queue.length ≤ x.queue.length := by
  unfold clearUnit
  simp only
  split
  · simp
  · simp only [List.length_take]; omega

theorem disableArea_keeps (s : State) : Keeps leavingUnit s (disableArea s) := by
  unfold disableArea
  split
  · exact ((abandonEnable_keeps _).trans (onUnit_keeps _ _ (Nat.le_refl _))).mono rfl
  · simp only
    refine Keeps.trans ((onUnit_keeps clearUnit s (clearUnit_queue _)).mono rfl) ?_
    generalize State.onXu _ s = u
    exact ((((abandonScan_keeps u).trans (reportDiscarded_keeps _ _)).trans (cancelReading_keeps _)).trans
      (areaChanged_keeps _)).mono rfl

theorem dropWaiting_keeps (s : State) : Keeps p s (dropWaiting s) := by
  refine Keeps.foldl _ (fun s k => ?_) _ _
  split
  · exact putCell_keeps _ _ _
  · exact Keeps.refl _ _

theorem areaFault_keeps (code : Nat) (own : State → State) (k : ∀ s, Keeps leavingUnit s (own s)) (s : State) :
    Keeps leavingUnit s (areaFault code own s) := by
  unfold areaFault
  split
  · simp only
    refine Keeps.trans (((abandonEnable_keeps s).trans
      (onUnit_keeps (fun x => { x with area := .areaFault, checkCode := code, attn := false }) _ (Nat.le_refl _))).mono rfl) ?_
    generalize State.onXu _ _ = u
    exact ((((abandonScan_keeps u).trans (k _)).trans (dropWaiting_keeps _)).trans ((cancelReading_keeps _).mono rfl)).trans
      ((areaChanged_keeps _).mono rfl)
  · exact k s

theorem busErrorOf_keeps (u : BusUnit) (s : State) : Keeps leavingUnit s (busErrorOf u s) := by
  cases u with
  | enable =>
    simp only [busErrorOf, enableError]
    split
    · exact areaFault_keeps _ _ (fun s => (onUnit_keeps _ _ (Nat.le_refl _)).mono rfl) _
    · exact areaFault_keeps _ _ (fun s => (onUnit_keeps _ _ (Nat.le_refl _)).mono rfl) _
    · exact (onUnit_keeps _ _ (Nat.le_refl _)).mono rfl
    · exact (onUnit_keeps _ _ (Nat.le_refl _)).mono rfl
  | scan =>
    simp only [busErrorOf, scanError]
    split
    · exact Keeps.refl _ _
    · exact areaFault_keeps _ _ (fun s => endScan_keeps s) _
  | mount =>
    simp only [busErrorOf, mountError]
    split
    · exact ((onMould_keeps _ _).mono rfl).trans (areaFault_keeps _ _ (fun s => Keeps.refl _ s) _)
    · split
      · exact ((onMould_keeps _ _).mono rfl).trans (areaFault_keeps _ _ (fun s => Keeps.refl _ s) _)
      · exact Keeps.refl _ _
  | job =>
    simp only [busErrorOf, jobError]
    split
    · split
      · exact areaFault_keeps _ _ jobFailed_keeps _
      · exact Keeps.refl _ _
    · exact Keeps.refl _ _

/-! ## The cycle close -/

/-- Every block but the lines. -/
def everyBlock : Parts := { timer := true, front := true, corr := true, evid := true, mould := true, tester := true, tables := true }

theorem onTimer_keeps (f : CycleTimer → CycleTimer) (s : State) : Keeps { timer := true } s (s.onTimer f) where
  variant := rfl
  board := rfl
  lines := rfl
  area := rfl
  pending := rfl
  queue := id
  tests := id
  timer := nofun
  front _ := rfl
  corr _ := rfl
  evid _ := rfl
  mould _ := rfl
  tester _ := rfl
  unit _ := .refl _
  events _ := id
  members _ _ := id
  zones _ := .same rfl rfl rfl

theorem drawRelease_keeps (s : State) : Keeps p s (drawRelease s) := by
  unfold drawRelease
  split
  · exact useFree_keeps _
  · exact Keeps.refl _ _

theorem releaseIn_keeps (a b : Nat) (s : State) : Keeps { front := true, mould := true } s (releaseIn a b s) := by
  unfold releaseIn
  split
  · exact releaseHead_keeps _
  · exact Keeps.refl _ _

theorem zeroTally_keeps (s : State) : Keeps acoustic s (zeroTally s) := onTallies_keeps _ _

theorem closeSound_keeps (n : Nat) (s : State) : Keeps sounding s (closeSound n s) := by
  unfold closeSound
  refine Keeps.trans (testerClose_keeps s) ?_
  generalize testerClose s = a
  refine Keeps.trans ((releaseIn_keeps n 0 a).mono rfl) ?_
  generalize releaseIn n 0 a = b
  refine Keeps.trans (cutHits_keeps b) ?_
  generalize cutHits b = c
  exact ((cutEvents_keeps c).mono rfl).trans ((releaseIn_keeps n 1 _).mono rfl)

theorem exchangeClose_keeps (f : CloseFacts) (s : State) : Keeps p s (exchangeClose f s) := by
  unfold exchangeClose
  simp only
  refine Keeps.trans ((onXu_keeps (fun x => { x with accruals := noAccruals }) s (fun _ => .rfls rfl) (fun _ => rfl)).trans
    (placeRecord_keeps (formRecord f s.xu.accruals) _)) ?_
  split
  · exact (requestMirror_keeps _).trans (askScan_keeps _ _)
  · exact Keeps.refl _ _

theorem cycleClose_keeps (s : State) : Keeps everyBlock s (cycleClose s) := by
  unfold cycleClose
  simp only
  refine Keeps.trans (drawRelease_keeps s) ?_
  refine Keeps.trans ((closeSound_keeps (releasePart s) (drawRelease s)).mono rfl) ?_
  generalize closeSound (releasePart s) (drawRelease s) = a
  refine Keeps.trans ((zeroTally_keeps a).mono rfl) ?_
  refine Keeps.trans ((evidenceClose_keeps (zeroTally a)).mono rfl) ?_
  refine Keeps.trans ((releaseIn_keeps (releasePart s) 2 _).mono rfl) ?_
  generalize releaseIn (releasePart s) 2 (evidenceClose (zeroTally a)) = b
  refine Keeps.trans ((mouldClose_keeps b).mono rfl) ?_
  refine Keeps.trans ((onTimer_keeps openCycle _).mono rfl) ?_
  generalize closeFacts _ _ _ = f
  refine Keeps.trans (exchangeClose_keeps f _) ?_
  exact ((offerCheckpoint_keeps _).mono rfl).trans ((offerPending_keeps _).mono rfl)

/-- A line edge, however it is delivered, changes nothing outside the blocks. -/
theorem deliverEdge_keeps (l : Line) (r : Bool) (s : State) : Keeps everyBlock s (deliverEdge l r s) := by
  have phase : ∀ x : PhaseLine, Keeps everyBlock s (lineEdge x r s) := by
    intro x
    unfold lineEdge
    split
    · exact (onTimer_keeps _ _).mono rfl
    · exact Keeps.refl _ _
  cases l with
  | cyc =>
    simp only [deliverEdge, cycEdge]
    split
    · exact cycleClose_keeps _
    · exact Keeps.refl _ _
  | feed => exact phase .feed
  | vib => exact phase .vib
  | tamp => exact phase .tamp
  | strip => exact phase .strip
  | mpres =>
    simp only [deliverEdge]
    split
    · exact Keeps.refl _ _
    · exact (mouldPulled_keeps _).mono rfl
  | clamp =>
    simp only [deliverEdge]
    split
    · exact (clampLocks_keeps _).mono rfl
    · exact (clampUnlocks_keeps _).mono rfl

end Sys2Proof.Machine
end

