-- ==== Sys2Proof/WellFormed.lean ====
section
/-! DEFINITION. Which operands a command can carry on this hardware: byte fields of an order cell, lengths of the reads, dB codes. -/

namespace Sys2Proof

/-- The operands of a command lie in the ranges its source can deliver (Tables 4, 53 to 57, 61). -/
def Instr.wellFormed : Instr → Bool
  | .supplyOutOfRange | .suppliesReturnWithinRange | .supplyReturnDelayExpiry | .rstLow _ | .resetTaken | .resetEnd _
  | .functionLevelReset => true
  | .lineRawChange _ mv => decide (mv ≤ 30000)
  | .lineFilterExpiry _ | .windowOpen _ | .windowClose _ | .clockWrap | .stall => true
  | .hitStart _ a | .hitCrossing _ a => decide (a ≤ 100)
  | .hdtExpiry _ | .maxDurationExpiry _ | .lockoutExpiry _ | .settleExpiry _ _ | .biasOverload _ | .routeEnd _
  | .eventDeadline _ | .mountTimerExpiry | .attemptEndTick | .restExpiry | .lampBlinkToggle => true
  | .registerWrite _ _ | .enable | .enableHeaderReadStart => true
  | .enableHeaderReadDone bs => decide (bs.length = 44)
  | .capabilityWriteDone | .disable | .look => true
  | .scanHeaderReadDone bs => decide (bs.length = 12)
  | .programmeReadDone bs => decide (bs.length = 172)
  | .echoWriteDone => true
  | .boardReadDone bs => decide (bs.length = 32)
  | .cellTakeCasDone _ => true
  | .mount _ _ off _ => decide (off < 2 ^ 24)
  | .dismount _ _ => true
  | .testSensor _ _ src a l n d _ =>
    decide (src < 256) && decide (a < 256) && decide (l < 256) && decide (n < 256) && decide (d < 256)
  | .clearZone _ _ z => decide (z < 256)
  | .releaseStop _ _ => true
  | .badKind _ _ k => decide (k < 256) && !(decide (1 ≤ k) && decide (k ≤ 5))
  | .mountFixedReadDone bs => decide (bs.length = 8)
  | .mountDescriptionReadDone bs => decide (bs.length ≤ 20 * 255)
  | .mountContextReadDone bs => decide (bs.length ≤ 15 + 16 * 255)
  | .jobWriteAccepted | .resultStateCasDone _ | .busError _ => true

end Sys2Proof
end

