-- ==== Sys2Proof/Laws/PerInstr.lean ====
section
/-! SUPPORT. What is said of every command as syntax: a well-formed command's operands lie in the ranges of the tables that carry them. -/

namespace Sys2Proof.Laws.OperandRanges

open Sys2Proof

/-- Each operand of a command with the least and the greatest value its source delivers: dB codes and the fields and lengths of
Tables 4, 46, 53 to 57 and 61. Channel, line, window and cell numbers are in range by their types. -/
def bounds : Instr → List (Nat × Nat × Nat)
  | .supplyOutOfRange => []
  | .suppliesReturnWithinRange => []
  | .supplyReturnDelayExpiry => []
  | .rstLow _ => []
  | .resetTaken => []
  | .resetEnd _ => []
  | .functionLevelReset => []
  | .lineRawChange _ mv => [(0, mv, 30000)]
  | .lineFilterExpiry _ => []
  | .windowOpen _ => []
  | .windowClose _ => []
  | .clockWrap => []
  | .stall => []
  | .hitStart _ a => [(0, a, 100)]
  | .hitCrossing _ a => [(0, a, 100)]
  | .hdtExpiry _ => []
  | .maxDurationExpiry _ => []
  | .lockoutExpiry _ => []
  | .settleExpiry _ _ => []
  | .biasOverload _ => []
  | .routeEnd _ => []
  | .eventDeadline _ => []
  | .mountTimerExpiry => []
  | .attemptEndTick => []
  | .restExpiry => []
  | .lampBlinkToggle => []
  | .registerWrite _ _ => []
  | .enable => []
  | .enableHeaderReadStart => []
  | .enableHeaderReadDone bs => [(44, bs.length, 44)]
  | .capabilityWriteDone => []
  | .disable => []
  | .look => []
  | .scanHeaderReadDone bs => [(12, bs.length, 12)]
  | .programmeReadDone bs => [(172, bs.length, 172)]
  | .echoWriteDone => []
  | .boardReadDone bs => [(32, bs.length, 32)]
  | .cellTakeCasDone _ => []
  | .mount _ tag offset _ => [(0, tag.toNat, 65535), (0, offset, 2 ^ 24 - 1)]
  | .dismount _ tag => [(0, tag.toNat, 65535)]
  | .testSensor _ tag source amplitude level attempts delay _ =>
    [(0, tag.toNat, 65535), (0, source, 255), (0, amplitude, 255), (0, level, 255), (0, attempts, 255), (0, delay, 255)]
  | .clearZone _ tag zone => [(0, tag.toNat, 65535), (0, zone, 255)]
  | .releaseStop _ tag => [(0, tag.toNat, 65535)]
  | .badKind _ tag kind => [(0, tag.toNat, 65535), (0, kind, 255)]
  | .mountFixedReadDone bs => [(8, bs.length, 8)]
  | .mountDescriptionReadDone bs => [(0, bs.length, 20 * 255)]
  | .mountContextReadDone bs => [(0, bs.length, 15 + 16 * 255)]
  | .jobWriteAccepted => []
  | .resultStateCasDone _ => []
  | .busError _ => []

/-- Every operand of a well-formed command lies between its least and its greatest value. -/
def Statement (i : Instr) : Prop := i.wellFormed = true → ∀ b ∈ bounds i, b.1 ≤ b.2.1 ∧ b.2.1 ≤ b.2.2

theorem supplyOutOfRange : Statement (.supplyOutOfRange) := fun _ _ hb => nomatch hb

theorem suppliesReturnWithinRange : Statement (.suppliesReturnWithinRange) := fun _ _ hb => nomatch hb

theorem supplyReturnDelayExpiry : Statement (.supplyReturnDelayExpiry) := fun _ _ hb => nomatch hb

theorem rstLow (pin : ResetPin) : Statement (.rstLow pin) := fun _ _ hb => nomatch hb

theorem resetTaken : Statement (.resetTaken) := fun _ _ hb => nomatch hb

theorem resetEnd (pin : ResetPin) : Statement (.resetEnd pin) := fun _ _ hb => nomatch hb

theorem functionLevelReset : Statement (.functionLevelReset) := fun _ _ hb => nomatch hb

theorem lineRawChange (line : Line) (millivolts : Nat) : Statement (.lineRawChange line millivolts) := by
  intro h b hb
  simp only [Instr.wellFormed, decide_eq_true_eq, bounds, List.mem_cons, List.not_mem_nil, or_false] at h hb
  subst hb
  simp only []
  omega

theorem lineFilterExpiry (line : Line) : Statement (.lineFilterExpiry line) := fun _ _ hb => nomatch hb

theorem windowOpen (w : WindowNo) : Statement (.windowOpen w) := fun _ _ hb => nomatch hb

theorem windowClose (w : WindowNo) : Statement (.windowClose w) := fun _ _ hb => nomatch hb

theorem clockWrap : Statement (.clockWrap) := fun _ _ hb => nomatch hb

theorem stall : Statement (.stall) := fun _ _ hb => nomatch hb

theorem hitStart (c : ChannelNo) (amplitude : Nat) : Statement (.hitStart c amplitude) := by
  intro h b hb
  simp only [Instr.wellFormed, decide_eq_true_eq, bounds, List.mem_cons, List.not_mem_nil, or_false] at h hb
  subst hb
  simp only []
  omega

theorem hitCrossing (c : ChannelNo) (amplitude : Nat) : Statement (.hitCrossing c amplitude) := by
  intro h b hb
  simp only [Instr.wellFormed, decide_eq_true_eq, bounds, List.mem_cons, List.not_mem_nil, or_false] at h hb
  subst hb
  simp only []
  omega

theorem hdtExpiry (c : ChannelNo) : Statement (.hdtExpiry c) := fun _ _ hb => nomatch hb

theorem maxDurationExpiry (c : ChannelNo) : Statement (.maxDurationExpiry c) := fun _ _ hb => nomatch hb

theorem lockoutExpiry (c : ChannelNo) : Statement (.lockoutExpiry c) := fun _ _ hb => nomatch hb

theorem settleExpiry (c : ChannelNo) (microamps : Nat) : Statement (.settleExpiry c microamps) := fun _ _ hb => nomatch hb

theorem biasOverload (c : ChannelNo) : Statement (.biasOverload c) := fun _ _ hb => nomatch hb

theorem routeEnd (c : ChannelNo) : Statement (.routeEnd c) := fun _ _ hb => nomatch hb

theorem eventDeadline (serial : Nat) : Statement (.eventDeadline serial) := fun _ _ hb => nomatch hb

theorem mountTimerExpiry : Statement (.mountTimerExpiry) := fun _ _ hb => nomatch hb

theorem attemptEndTick : Statement (.attemptEndTick) := fun _ _ hb => nomatch hb

theorem restExpiry : Statement (.restExpiry) := fun _ _ hb => nomatch hb

theorem lampBlinkToggle : Statement (.lampBlinkToggle) := fun _ _ hb => nomatch hb

theorem registerWrite (reg : Register) (value : Word) : Statement (.registerWrite reg value) := fun _ _ hb => nomatch hb

theorem enable : Statement (.enable) := fun _ _ hb => nomatch hb

theorem enableHeaderReadStart : Statement (.enableHeaderReadStart) := fun _ _ hb => nomatch hb

theorem enableHeaderReadDone (bytes : List Byte) : Statement (.enableHeaderReadDone bytes) := by
  intro h b hb
  simp only [Instr.wellFormed, decide_eq_true_eq, bounds, List.mem_cons, List.not_mem_nil, or_false] at h hb
  subst hb
  simp only []
  omega

theorem capabilityWriteDone : Statement (.capabilityWriteDone) := fun _ _ hb => nomatch hb

theorem disable : Statement (.disable) := fun _ _ hb => nomatch hb

theorem look : Statement (.look) := fun _ _ hb => nomatch hb

theorem scanHeaderReadDone (bytes : List Byte) : Statement (.scanHeaderReadDone bytes) := by
  intro h b hb
  simp only [Instr.wellFormed, decide_eq_true_eq, bounds, List.mem_cons, List.not_mem_nil, or_false] at h hb
  subst hb
  simp only []
  omega

theorem programmeReadDone (bytes : List Byte) : Statement (.programmeReadDone bytes) := by
  intro h b hb
  simp only [Instr.wellFormed, decide_eq_true_eq, bounds, List.mem_cons, List.not_mem_nil, or_false] at h hb
  subst hb
  simp only []
  omega

theorem echoWriteDone : Statement (.echoWriteDone) := fun _ _ hb => nomatch hb

theorem boardReadDone (bytes : List Byte) : Statement (.boardReadDone bytes) := by
  intro h b hb
  simp only [Instr.wellFormed, decide_eq_true_eq, bounds, List.mem_cons, List.not_mem_nil, or_false] at h hb
  subst hb
  simp only []
  omega

theorem cellTakeCasDone (found : Word) : Statement (.cellTakeCasDone found) := fun _ _ hb => nomatch hb

theorem mount (notify : Bool) (tag : Half) (offset : Nat) (fresh : Bool) : Statement (.mount notify tag offset fresh) := by
  intro h b hb
  simp only [Instr.wellFormed, decide_eq_true_eq, bounds, List.mem_cons, List.not_mem_nil, or_false] at h hb
  rcases hb with rfl | rfl <;> simp only [] <;> omega

theorem dismount (notify : Bool) (tag : Half) : Statement (.dismount notify tag) := by
  intro h b hb
  simp only [bounds, List.mem_cons, List.not_mem_nil, or_false] at hb
  subst hb
  simp only []
  omega

theorem testSensor (notify : Bool) (tag : Half) (source amplitude level attempts delay : Nat) (apply : Bool) : Statement (.testSensor notify tag source amplitude level attempts delay apply) := by
  intro h b hb
  simp only [Instr.wellFormed, Bool.and_eq_true, decide_eq_true_eq, bounds, List.mem_cons, List.not_mem_nil, or_false] at h hb
  rcases hb with rfl | rfl | rfl | rfl | rfl | rfl <;> simp only [] <;> omega

theorem clearZone (notify : Bool) (tag : Half) (zone : Nat) : Statement (.clearZone notify tag zone) := by
  intro h b hb
  simp only [Instr.wellFormed, decide_eq_true_eq, bounds, List.mem_cons, List.not_mem_nil, or_false] at h hb
  rcases hb with rfl | rfl <;> simp only [] <;> omega

theorem releaseStop (notify : Bool) (tag : Half) : Statement (.releaseStop notify tag) := by
  intro h b hb
  simp only [bounds, List.mem_cons, List.not_mem_nil, or_false] at hb
  subst hb
  simp only []
  omega

theorem badKind (notify : Bool) (tag : Half) (kind : Nat) : Statement (.badKind notify tag kind) := by
  intro h b hb
  simp only [Instr.wellFormed, Bool.and_eq_true, decide_eq_true_eq, bounds, List.mem_cons, List.not_mem_nil, or_false] at h hb
  rcases hb with rfl | rfl <;> simp only [] <;> omega

theorem mountFixedReadDone (bytes : List Byte) : Statement (.mountFixedReadDone bytes) := by
  intro h b hb
  simp only [Instr.wellFormed, decide_eq_true_eq, bounds, List.mem_cons, List.not_mem_nil, or_false] at h hb
  subst hb
  simp only []
  omega

theorem mountDescriptionReadDone (bytes : List Byte) : Statement (.mountDescriptionReadDone bytes) := by
  intro h b hb
  simp only [Instr.wellFormed, decide_eq_true_eq, bounds, List.mem_cons, List.not_mem_nil, or_false] at h hb
  subst hb
  simp only []
  omega

theorem mountContextReadDone (bytes : List Byte) : Statement (.mountContextReadDone bytes) := by
  intro h b hb
  simp only [Instr.wellFormed, decide_eq_true_eq, bounds, List.mem_cons, List.not_mem_nil, or_false] at h hb
  subst hb
  simp only []
  omega

theorem jobWriteAccepted : Statement (.jobWriteAccepted) := fun _ _ hb => nomatch hb

theorem resultStateCasDone (found : Word) : Statement (.resultStateCasDone found) := fun _ _ hb => nomatch hb

theorem busError (unit : BusUnit) : Statement (.busError unit) := fun _ _ hb => nomatch hb

end Sys2Proof.Laws.OperandRanges
end

