-- ==== Sys2Proof/Tests/Slice0.lean ====
section
/-! SUPPORT. Small tests: what `wellFormed` refuses, the spec's worked figures, and for each statement with hypotheses a state that
meets them. -/

namespace Sys2Proof.Tests

open Sys2Proof Sys2Proof.Machine

-- The tests are checked one after the other, so that their waiting tasks do not pile up.
set_option Elab.async false

/-! ## Ill-formed commands are refused -/

theorem test_wellFormed_line : (Instr.lineRawChange .cyc 30000).wellFormed = true ∧ (Instr.lineRawChange .cyc 30001).wellFormed = false := by
  decide

theorem test_wellFormed_amplitude :
    (Instr.hitStart 0 100).wellFormed = true ∧ (Instr.hitStart 0 101).wellFormed = false
      ∧ (Instr.hitCrossing 0 100).wellFormed = true ∧ (Instr.hitCrossing 0 101).wellFormed = false := by decide

theorem test_wellFormed_reads :
    (Instr.enableHeaderReadDone []).wellFormed = false ∧ (Instr.scanHeaderReadDone []).wellFormed = false
      ∧ (Instr.programmeReadDone []).wellFormed = false ∧ (Instr.boardReadDone []).wellFormed = false
      ∧ (Instr.mountFixedReadDone []).wellFormed = false
      ∧ (Instr.scanHeaderReadDone (List.replicate 12 0)).wellFormed = true := by decide

theorem test_wellFormed_long_reads :
    (Instr.mountDescriptionReadDone (List.replicate 5101 0)).wellFormed = false
      ∧ (Instr.mountContextReadDone (List.replicate 4096 0)).wellFormed = false := by
  simp only [Instr.wellFormed, List.length_replicate]
  decide

theorem test_wellFormed_orders :
    (Instr.mount false 0 (2 ^ 24) false).wellFormed = false ∧ (Instr.mount false 0 (2 ^ 24 - 1) false).wellFormed = true
      ∧ (Instr.clearZone false 0 256).wellFormed = false ∧ (Instr.clearZone false 0 255).wellFormed = true
      ∧ (Instr.testSensor false 0 256 0 0 0 0 false).wellFormed = false ∧ (Instr.testSensor false 0 0 256 0 0 0 false).wellFormed = false
      ∧ (Instr.testSensor false 0 0 0 256 0 0 false).wellFormed = false ∧ (Instr.testSensor false 0 0 0 0 256 0 false).wellFormed = false
      ∧ (Instr.testSensor false 0 0 0 0 0 256 false).wellFormed = false := by decide

theorem test_wellFormed_kinds :
    (Instr.badKind false 0 0).wellFormed = true ∧ (Instr.badKind false 0 1).wellFormed = false ∧ (Instr.badKind false 0 5).wellFormed = false
      ∧ (Instr.badKind false 0 6).wellFormed = true ∧ (Instr.badKind false 0 256).wellFormed = false := by decide

/-- No row of the table gives bits, so no word spells a command. -/
theorem test_decode_none : decodeTableWord 8 0x35 = none := by decide

/-! ## States for the tests and witnesses -/

/-- Path 3 of Section 3.7, here path 0: channels 4 and 5, 600 mm at 310 µm a tick. -/
def path : PathEntry :=
  { endA := 4, endB := 5, length := 600, velocity := 310, calibrated := false, margin := 40, guard := 5, window := 1976 }

/-- Zone 12 of Section 5.9, here zone 0, with its score and verdict before cycle 5230. -/
def zone : ZoneEntry :=
  { path := 0, start := 200, stop := 280, floor := 45, cavity := 9, label := 0x0C12, score := 5000, verdict := .watch, run := 3
    lastActive := some 1405, lifetime := 37, tallyEvents := 0, tallyActive := false }

/-- A channel LIVE and ARMED with base threshold 45 dB. -/
def heardChannel : Channel := { resetChannel with state := .live, base := some 45, detector := .armed }

/-- A mould on channels 4 and 5 in a state, with the tables of the path and the zone, and both channels LIVE. -/
def mounted (m : MouldState) : State :=
  { State.reset with
    mould := { resetMould with state := m, identity := some 17, offset := some 0x8000, used := [4, 5], cyclesWatched := 1405 }
    evid := { resetEvid with tables := some { paths := [path], zones := [zone] } }
    front := { resetFront with channels := (resetFront.channels.set 4 heardChannel).set 5 heardChannel } }

/-- A WATCHING mould. -/
def watched : State := mounted .watching

/-- A line whose filter timer has run out, with this raw level. -/
def edge (l : Line) (raw : Bool) (s : State) : State :=
  s.putLine l { band := if raw then .high else .low, raw := raw, filtered := !raw, timer := some 0 }

/-- The area ACTIVE with room in both rings. -/
def activated (s : State) : State :=
  { s with xu := { s.xu with
      en := true, area := .active, baseL := 0x10000
      geometry := { areaSize := 0x100000, journalOffset := 0x3000, journalSize := 16, listOffset := 0x4000, listSize := 64 }
      nextJournal := some 1, nextLocated := some 1, consumedJournal := some 0, consumedLocated := some 0 } }

/-- The scan unit in a phase of a LOOK scan. -/
def scanning (p : ScanPhase) (s : State) : State := s.onXu fun x => { x with scan := { x.scan with phase := p } }

/-- A cell that the scan has taken and read. -/
def readCell (s : State) : State := scanning (.cellRead 2) (activated s)

/-- The clock at a tick. -/
def clockTo (t : Word) (s : State) : State := s.onTimer fun c => { c with clock := t }

/-- What a step of a command leaves of a part of the state. -/
def after {α : Type} (f : State → α) (i : Instr) (s : State) : Option α :=
  match exec i s with
  | .next t => some (f t)
  | _ => none

/-! ## The spec's worked figures -/

/-- Sections 3.7 and 7.5. -/
theorem test_path_windows :
    pathWindow 600 310 40 = 1976 ∧ pathWindow 450 300 40 = 1540 ∧ pathWindow 900 300 40 = 3040 ∧ pathWindow 900 305 40 = 2991 := by decide

/-- Table 25 and the arrivals across a wrap of Section 4.7. -/
theorem test_positions :
    locatePosition path 0 0 = some 300 ∧ locatePosition path 0 100 = some 285 ∧ locatePosition path 1000000 1000400 = some 238
      ∧ locatePosition path 0 1950 = some 0 ∧ locatePosition path 1935 0 = some 600 ∧ locatePosition path 1960 0 = some 600
      ∧ locatePosition path 1976 0 = none ∧ locatePosition path 0 1977 = none
      ∧ locatePosition path 4294967000 104 = some 238 ∧ locatePosition path 104 4294967000 = some 362 := by decide

/-- Section 5.9: a position of 238 mm lies in the zone, one of 285 mm in none. -/
theorem test_zones : zoneAt [zone] 0 238 = some 0 ∧ zoneAt [zone] 0 280 = some 0 ∧ zoneAt [zone] 0 285 = none ∧ zoneAt [zone] 1 238 = none := by
  decide

/-- The thresholds of Table 30. -/
def part30 : EvidencePart :=
  { decay := 9, tWatch := 800, tSuspect := 3000, tCrack := 9000, hysteresis := 200, suspectRun := 0, stopOnCrack := true }

/-- Table 30. -/
theorem test_verdicts :
    [9000, 8999, 3000, 2800, 2799, 600, 599].map (fun score => verdictAfter part30 .suspect score 0)
      = [.cracked, .suspect, .suspect, .suspect, .watch, .watch, .sound] := by decide

/-- Section 5.9, cycle 5230, and the gate of Section 3.7. -/
theorem test_evidence : increment 6 62 45 = 108 ∧ increment 10 62 45 = 180 ∧ increment 10 44 45 = 0 ∧ decayed 9 5108 = 5099 := by decide

/-- Table 42. -/
theorem test_calibrations :
    calibrate 1950 600 15 = (.ok, some 310) ∧ calibrate 12 600 15 = (.invalid, none) ∧ calibrate 15 600 15 = (.invalid, none)
      ∧ calibrate 515 600 15 = (.range, some 1200) ∧ calibrate 7000 600 15 = (.range, some 86) ∧ calibrate 2965 900 15 = (.ok, some 305) := by
  decide

/-- Section 9.7. -/
theorem test_unread : unreadCount 117 100 16 = 16 ∧ unreadCount 117 110 16 = 6 ∧ unreadCount 119 110 16 = 8 := by decide

/-- Table 51: XSTAT of a stopped press with an ACTIVE area and a WATCHING mould, and XIDENT. -/
theorem test_registers :
    readRegister (activated watched) .xstat = 0x22 ∧ readRegister (activated watched) .xctl = 1
      ∧ readRegister watched .xident = 0x0110 ∧ readRegister { watched with variant := .omplar0840 } .xident = 0x0108 := by decide

/-! ## Small steps -/

/-- Section 5.9: the close of cycle 5230, after the event. -/
def cycle5230 : State :=
  edge .cyc true { watched with
    evid := { watched.evid with
      part := part30, tables := some { paths := [path], zones := [{ zone with score := 5108, tallyEvents := 1, tallyActive := true }] } } }

theorem test_cycle_5230 :
    after zonesOf (.lineFilterExpiry .cyc) cycle5230
      = some [{ zone with score := 5099, verdict := .suspect, run := 4, lifetime := 38, lastActive := some 1406 }] := by decide +kernel

theorem test_cycle_5230_lamp :
    after (fun t => (t.timer.number, t.timer.press, t.mould.cyclesWatched, lampOn t, stopreq t)) (.lineFilterExpiry .cyc) cycle5230
      = some (1, .running, 1406, true, false) := by decide +kernel

/-- Section 2.6: base 45 dB under raise 6 gives threshold 51, and a window of weight 10 gives gate 10. -/
def inWindow : State :=
  { watched with timer := { watched.timer with
      clock := 80000000
      windows := watched.timer.windows.set 2 { state := .open, defn := { anchor := .cyc, offset := 78500000, length := 20000000, weight := 10, raise := 6 } } } }

theorem test_hit_start :
    after (fun t => (t.channel 5).hit) (.hitStart 5 58) inWindow
      = some (some { arrival := 80000000, threshold := 51, gate := 10, hitDef := resetFront.hitDef, counts := 1, peak := 58
                     lastCrossing := 80000000, receiver := .correlator, hdtLeft := 1000, maxLeft := 200000 }) := by decide +kernel

theorem test_hit_below : after (fun t => (t.channel 5).hit) (.hitStart 5 50) inWindow = some none := by decide +kernel

/-- A hit on channel 5 with these features, whose timers have run out. -/
def withHit (counts : Nat) (r : Receiver) (s : State) : State :=
  s.onChannel 5 fun ch =>
    { ch with
      detector := .inHit
      hit := some { arrival := 0, threshold := 51, gate := 10, hitDef := resetFront.hitDef, counts := counts, peak := 64, lastCrossing := 0
                    receiver := r, hdtLeft := 0, maxLeft := 0 } }

theorem test_hit_end_lockout :
    after (fun t => ((t.channel 5).detector, (t.channel 5).lockout)) (.hdtExpiry 5) (withHit 4 .correlator watched)
      = some (.lockout, some 5000) := by decide +kernel

/-- R176: 5 V and 15 V are within the bands, and between them the level stays. -/
theorem test_line_bands :
    [5000, 5001, 14999, 15000].map (fun mv => after (fun t => (t.lines.feed.raw, t.lines.feed.timer)) (.lineRawChange .feed mv) State.reset)
      = [some (false, none), some (false, none), some (false, none), some (true, some 100)] := by decide +kernel

theorem test_line_filter_mpres :
    after (fun t => t.lines.mpres.timer) (.lineRawChange .mpres 24000) State.reset = some (some 200000) := by decide +kernel

theorem test_reset_pulse_short :
    after (fun t => held t) (.resetEnd .rst) { State.reset with board := { resetBoard with rstLow := true, qualify := some 40 } } = some false := by
  decide +kernel

/-- R153: a close waits behind a scan as the mark CLOSE. -/
theorem test_look_mark :
    after (fun t => t.xu.scan.mark) .look (scanning .board (activated State.reset)) = some (some .look) := by decide +kernel

theorem test_base_low_bits :
    after (fun t => t.xu.baseL) (.registerWrite .xbaseL 0x12345FFF) State.reset = some 0x12345000 := by decide +kernel

/-- R15: at clock 15 the edge of VIB opens window 1 and closes window 3, as one change. -/
def meeting : State :=
  edge .vib true { State.reset with timer := { resetTimer with
      clock := 15, openedByReset := false, installed := { defaultTiming with phaseEdge := ⟨.none, .both, .none, .none⟩ }
      windows := (resetTimer.windows.set 3 { state := .open, defn := { anchor := .cyc, offset := 5, length := 10, weight := 3, raise := 2 } }).set 1
        { state := .waiting, defn := { anchor := .phase .vib, offset := 0, length := 10, weight := 9, raise := 4 } } } }

theorem test_windows_meet :
    after (fun t => (t.timer.windows[1].state, t.timer.windows[3].state, currentGate t.timer)) (.lineFilterExpiry .vib) meeting
      = some (.open, .spent, 9) := by decide +kernel

/-- No word spells a command, so the fetch word leaves the state. -/
theorem test_withFetchWord : State.reset.withFetchWord 8 0x35 = State.reset := by decide +kernel

/-- A tick of an idle part counts the clock. -/
theorem test_tick :
    (match step State.reset with
    | .next t => some t.timer.clock
    | _ => none) = some 1 := by decide +kernel

/-! ## Witnesses: states that meet the statements' hypotheses -/

theorem witness_TickAdvancesClock :
    State.reset.pending = [] ∧ (clockTo (BitVec.allOnes 32) State.reset).pending = [] ∧ held (clockTo (BitVec.allOnes 32) State.reset) = false
      ∧ held { State.reset with board := { resetBoard with rstTaken := true } } = true := by decide +kernel

/-- A tick brings a lockout's last tick to its expiry, and no other command falls due. -/
theorem test_tick_lockout :
    (match step (watched.onChannel 5 fun ch => { ch with detector := .lockout, lockout := some 1 }) with
    | .next t => some (t.pending, (t.channel 5).lockout)
    | _ => none) = some ([.lockoutExpiry 5], some 0) := by decide +kernel

theorem witness_ResetTakesEveryBlock :
    ({ resetBoard with rstLow := true, qualify := some 0 } : Board).qualify = some 0 ∧ resetBoard.qualify ≠ some 0
      ∧ ({ resetBoard with rstLow := true, qualify := some 1 } : Board).qualify ≠ some 0 := by decide +kernel

/-- The supplies out; the delay run out; both pins high; both pins low; one pin low, taken. -/
theorem witness_ResetsStartAndEnd :
    ({ resetBoard with supplyOk := false } : Board).supplyOk = false
      ∧ ({ resetBoard with supplyDelay := some 0, powerOn := true } : Board).supplyDelay = some 0
      ∧ pinLow resetBoard = false ∧ pinLow { resetBoard with slotLow := true } = true
      ∧ (if ResetPin.rst = .rst then ({ resetBoard with rstLow := true, slotLow := true } : Board).slotLow else false) = true
      ∧ (if ResetPin.slot = .rst then true else ({ resetBoard with slotLow := true, rstTaken := true } : Board).rstLow) = false := by decide +kernel

theorem witness_CycEdgeOpensCycle :
    held (edge .cyc true watched) = false ∧ EdgeDue (edge .cyc true watched) .cyc
      ∧ selects (edge .cyc true watched).timer.installed.cycEdge (edge .cyc true watched).lines.cyc.raw = true := by decide +kernel

theorem witness_CycEdgeOpensCycle_record :
    active (edge .cyc true (activated watched)) = true ∧ (edge .cyc true (activated watched)).xu.carry = none
      ∧ RoomAfter (edge .cyc true (activated watched)) 0 ∧ (edge .cyc true (activated watched)).xu.listSelection = 0
      ∧ (edge .cyc true (activated watched)).tester = [] ∧ (edge .cyc true (activated watched)).corr.tallies.cut ≤ 4294967295 := by
  decide +kernel

theorem witness_CycEdgeOpensCycle_other :
    held (edge .cyc false watched) = false ∧ EdgeDue (edge .cyc false watched) .cyc
      ∧ selects (edge .cyc false watched).timer.installed.cycEdge (edge .cyc false watched).lines.cyc.raw = false := by decide +kernel

theorem witness_CloseUpdatesZones :
    held cycle5230 = false ∧ EdgeDue cycle5230 .cyc ∧ selects cycle5230.timer.installed.cycEdge cycle5230.lines.cyc.raw = true
      ∧ cycle5230.corr.events = [] ∧ NoHit cycle5230 ∧ cycle5230.tester = [] ∧ cycle5230.mould.pendingSave ≠ some .dismount
      ∧ cycle5230.mould.pendingSave ≠ some .unplanned ∧ (zonesOf cycle5230)[0]?.isSome = true := by decide +kernel

/-- The close of cycle 5230 with the area ACTIVE: a carry record held, this many jobs waiting and this next journal sequence. -/
def closing (carry : Bool) (jobs : Nat) (next : Word) : State :=
  (activated cycle5230).onXu fun x =>
    { x with
      carry := if carry then some (closedRecord cycle5230 cycle5230) else none, nextJournal := some next
      queue := List.replicate jobs { base := 0, seed := 0, body := .result 2 5 true .ok } }

/-- Each case of R169: room for one record, for two, for none in the journal and none in the queue; and a checkpoint due. -/
theorem witness_CloseUpdatesZones_record :
    active (closing true 0 1) = true ∧ RoomAfter (closing false 0 1) 0 ∧ ¬ RoomAfter (closing false 0 17) 0 ∧ ¬ RoomAfter (closing true 16 1) 0
      ∧ RoomAfter (closing true 0 1) 1 ∧ RoomAfter (closing true 15 1) 0 ∧ ¬ RoomAfter (closing true 15 1) 1
      ∧ mountingFits (closing true 0 1) = true
      ∧ CheckpointWanted ((closing true 0 1).onMould fun m => { m with checkpointInterval := 3, checkpoint := 2 }) := by decide +kernel

/-- VIB selected on both edges. -/
def vibrating (capture : Option Word) : State :=
  { State.reset with timer := { resetTimer with
      captures := ⟨none, capture, none, none⟩
      installed := { defaultTiming with phaseEdge := ⟨.none, .both, .none, .none⟩ } } }

theorem witness_PhaseEdgeCaptures :
    held (edge .feed true State.reset) = false ∧ EdgeDue (edge .feed true State.reset) .feed
      ∧ selects ((edge .feed true State.reset).timer.installed.phaseEdge.at .feed) true = false := by decide +kernel

theorem witness_PhaseEdgeCaptures_first :
    held (edge .vib false (vibrating none)) = false ∧ EdgeDue (edge .vib false (vibrating none)) .vib
      ∧ selects ((edge .vib false (vibrating none)).timer.installed.phaseEdge.at .vib) false = true
      ∧ (edge .vib false (vibrating none)).timer.captures.at .vib = none := by decide +kernel

theorem witness_PhaseEdgeCaptures_extra :
    held (edge .vib true (vibrating (some 0))) = false ∧ EdgeDue (edge .vib true (vibrating (some 0))) .vib
      ∧ selects ((edge .vib true (vibrating (some 0))).timer.installed.phaseEdge.at .vib) true = true
      ∧ (edge .vib true (vibrating (some 0))).timer.captures.at .vib ≠ none := by decide +kernel

/-- Window 3 anchored to CYC at 5 for 10 ticks, in a cycle that a CYC edge opened, at a clock. -/
def windowAt (st : WindowState) (clock : Word) : State :=
  { State.reset with timer := { resetTimer with
      clock := clock, openedByReset := false
      windows := resetTimer.windows.set 3 { state := st, defn := { anchor := .cyc, offset := 5, length := 10, weight := 3, raise := 2 } } } }

theorem witness_WindowsOpenAndClose :
    (windowAt .pending 5).timer.windows[3].state = .pending
      ∧ clockAt (windowAt .pending 5).timer (openTick (windowAt .pending 5).timer (windowAt .pending 5).timer.windows[3].defn) = true
      ∧ (windowAt .open 15).timer.windows[3].state = .open
      ∧ clockAt (windowAt .open 15).timer (closeTick (windowAt .open 15).timer (windowAt .open 15).timer.windows[3].defn) = true
      ∧ held (windowAt .open 15) = false := by decide +kernel

theorem witness_RaiseAndGateAreLargest :
    (windowAt .open 6).timer.windows[3].state = .open ∧ currentRaise (windowAt .open 6).timer = 2 ∧ currentGate (windowAt .open 6).timer = 3 := by
  decide +kernel

theorem witness_ClockWraps :
    held (clockTo (BitVec.allOnes 32) watched) = false ∧ (clockTo (BitVec.allOnes 32) watched).timer.clock = BitVec.allOnes 32 := by decide +kernel

/-- A RUNNING press at the default stall tick, with the area ACTIVE. -/
def stalling (p : Press) : State :=
  (activated watched).onTimer fun t => { t with clock := 300000000, press := p }

theorem witness_StallStopsPress :
    held (stalling .running) = false ∧ (stalling .running).timer.installed.stallLimit * 10000 ≤ (stalling .running).timer.clock.toNat
      ∧ (stalling .running).timer.press = .running ∧ (stalling .running).tester = [] ∧ active (stalling .running) = true
      ∧ (stalling .running).xu.carry = none ∧ journalRoom (stalling .running) = true ∧ queueRoom (stalling .running) = true := by decide +kernel

theorem witness_StallStopsPress_stopped :
    held (stalling .stopped) = false ∧ (stalling .stopped).timer.installed.stallLimit * 10000 ≤ (stalling .stopped).timer.clock.toNat
      ∧ (stalling .stopped).timer.press = .stopped := by decide +kernel

/-- A channel that can start a hit, with amplitudes at the threshold and just below it. -/
theorem witness_HitStartOpensHit :
    held watched = false ∧ (watched.channel 5).state = .live ∧ (watched.channel 5).detector = .armed ∧ (watched.channel 5).armedNow = false
      ∧ (watched.channel 5).base = some 45 ∧ min 99 (45 + currentRaise watched.timer) ≤ min 100 45
      ∧ min 100 44 < min 99 (45 + currentRaise watched.timer) := by decide +kernel

/-- The test that TEST_SENSOR on channel 4 makes. -/
def testOf (st : TestState) : Test :=
  { order := { cell := 2, take := 0, tag := 0 }, source := 4, required := 60, level := 2, allowed := 3, used := 0, delay := 15, apply := true
    state := st, partners := partnersOf [path] 4, rest := none, lastLevel := 2, attempt := none }

/-- Channel 5 is routed to the tester until tick 1976, in the attempt of a test of channel 4. -/
def routedTo (st : TestState) (s : State) : State :=
  ({ s with tester := [{ testOf st with
      attempt := some { pulseTick := 0, endTick := 1976 }
      partners := (partnersOf [path] 4).map fun p : Partner => { p with routed := true } }] }).onChannel 5
    fun ch => { ch with route := .tester 0 1976 }

/-- R138, and the boundary of the route: the last tick before its end, and the end itself. -/
theorem witness_HitStartOpensHit_tester :
    after (fun t => t.tester.map fun x => x.partners.map fun p => (p.firstSeen, p.hitOpen, p.arrival)) (.hitStart 5 60)
        (clockTo 1975 (routedTo .listening watched)) = some [[(true, true, 1975)]]
      ∧ after (fun t => t.corr.tallies.delivered) (.hitStart 5 60) (clockTo 1976 (routedTo .listening watched)) = some 1 := by decide +kernel

theorem witness_HitOpensEvent :
    held watched = false ∧ (watched.channel 4).state = .live ∧ (watched.channel 4).detector = .armed ∧ (watched.channel 4).armedNow = false
      ∧ (watched.channel 4).base = some 45 ∧ (watched.channel 4).route = .correlator ∧ min 99 (45 + currentRaise watched.timer) ≤ min 100 45
      ∧ watched.corr.events.length < 32 ∧ (∀ e ∈ watched.corr.events, accepts watched 4 watched.timer.clock e = false) := by decide +kernel

/-- 32 CLOSING events in the list. -/
def full : State :=
  { watched with corr := { resetCorr with
      nextSerial := 32
      events := (List.range 32).map fun n =>
        { serial := n, firstChannel := 4, firstArrival := 0, deadline := 1976, widest := 1976, closing := true
          members := [{ chan := 4, arrival := 0, gate := 10, ended := none }] } } }

/-- R50: the front event goes, its open member's place becomes DETACHED, and the event counts as FORCED and EMPTY. -/
theorem witness_HitOpensEvent_forced :
    32 ≤ full.corr.events.length ∧ (∀ e ∈ full.corr.events, accepts full 5 full.timer.clock e = false)
      ∧ after (fun t => (t.corr.events.map (·.serial), t.corr.places[(4 : ChannelNo)], t.corr.tallies.forced, t.corr.tallies.empty)) (.hitStart 5 60) full
          = some ((List.range 32).map (· + 1), .detached, 1, 1) := by decide +kernel

/-- A hit's end with this peak, unrejected. -/
def heard (peak : Nat) : HitEnd := { peak := peak, counts := 9, long := false, cut := false, rejected := false }

/-- An event of channel 4 at tick 0 with deadline 1976. -/
def eventOf (closing : Bool) (ms : List Member) : Event :=
  { serial := 7, firstChannel := 4, firstArrival := 0, deadline := 1976, widest := 1976, closing := closing, members := ms }

/-- A member of an event, with gate 10. -/
def memberOf (c : ChannelNo) (t : Word) (e : Option HitEnd) : Member := { chan := c, arrival := t, gate := 10, ended := e }

/-- A WATCHING mould with one event. -/
def withEvent (e : Event) (clock : Word) : State :=
  clockTo clock { watched with corr := { resetCorr with events := [e], nextSerial := 8 } }

/-- Channel 5's hit start exactly W_p after the first arrival. -/
def joining : State := withEvent (eventOf false [memberOf 4 0 none]) 1976

theorem witness_HitJoinsFirstAcceptingEvent :
    held joining = false ∧ (joining.channel 5).state = .live ∧ (joining.channel 5).detector = .armed ∧ (joining.channel 5).armedNow = false
      ∧ (joining.channel 5).base = some 45 ∧ (joining.channel 5).route = .correlator ∧ min 99 (45 + currentRaise joining.timer) ≤ min 100 45
      ∧ joining.corr.events = [] ++ eventOf false [memberOf 4 0 none] :: [] ∧ (∀ m ∈ [memberOf 4 0 none], m.chan ≠ 5)
      ∧ joiningPath (pathsOf joining) 5 4 = some (0, path) ∧ diff32 joining.timer.clock 0 ≤ path.window := by decide +kernel

/-- An open hit, with timers run out, at and below its threshold; a lockout over; a route at its end. -/
theorem witness_ChannelTimersAct :
    ((withHit 1 .correlator watched).channel 5).detector = .inHit
      ∧ ((withHit 1 .correlator watched).channel 5).hit.map (·.threshold) = some 51 ∧ 51 ≤ min 100 51 ∧ min 100 50 < 51
      ∧ ({ heardChannel with detector := .lockout, lockout := some 0 } : Channel).lockout = some 0 ∧ diff32 1976 0 ≤ diff32 1976 0
      ∧ held watched = false := by decide +kernel

theorem witness_HitEndsByTimer :
    held (withHit 1 .tester watched) = false ∧ ((withHit 1 .tester watched).channel 5).detector = .inHit
      ∧ ((withHit 1 .tester watched).channel 5).hit.map (fun h => (h.hdtLeft, h.maxLeft)) = some (0, 0)
      ∧ (∀ x ∈ (withHit 1 .tester watched).tester.head?, x.state ≠ .draining) := by decide +kernel

/-- R138: the end of a partner's first hit makes it heard, 1950 ticks after the pulse. -/
def hearing1 (st : TestState) : State :=
  (routedTo st (withHit 4 .tester watched)).onTest fun x =>
    { x with partners := (x.partners.map fun p => { p with firstSeen := true, hitOpen := true, arrival := 1950 })
        ++ [{ newPartner 7 0 with routed := true, hitOpen := true }] }

theorem witness_HitEndsByTimer_heard :
    after (fun t => t.tester.map fun x => x.partners.map fun p => (p.hitOpen, p.heardNow.map (·.velocity))) (.hdtExpiry 5) (hearing1 .draining)
        = some [[(false, some (some 310)), (true, none)]]
      ∧ ((hearing1 .draining).tester.all fun x => x.attempt.isSome && x.partners.any fun p => p.routed && p.hitOpen && decide (p.chan ≠ 5)) = true := by
  decide +kernel

/-- Channel 5's hit in an event, in this place. -/
def ending (place : HitPlace) (e : Event) : State :=
  (withHit 4 .correlator (withEvent e 2000)).putPlace 5 place

theorem witness_HitEndReachesCorrelator_detached :
    ((ending .detached (eventOf true [])).channel 5).detector = .inHit
      ∧ ((ending .detached (eventOf true [])).channel 5).hit.map (fun h => (h.hdtLeft, h.maxLeft, h.receiver)) = some (0, 0, .correlator)
      ∧ (ending .detached (eventOf true [])).corr.places[(5 : ChannelNo)] = .detached := by decide +kernel

/-- The last member of a CLOSING event. -/
theorem witness_HitEndReachesCorrelator_closes :
    (ending (.member 7) (eventOf true [memberOf 4 0 (some (heard 62)), memberOf 5 400 none])).corr.places[(5 : ChannelNo)] = .member 7
      ∧ findEvent (ending (.member 7) (eventOf true [memberOf 4 0 (some (heard 62)), memberOf 5 400 none])) 7
          = some (eventOf true [memberOf 4 0 (some (heard 62)), memberOf 5 400 none])
      ∧ (∀ m ∈ (eventOf true [memberOf 4 0 (some (heard 62)), memberOf 5 400 (some (heard 64))]).members, m.ended ≠ none) := by decide +kernel

/-- A member of an OPEN event. -/
theorem witness_HitEndReachesCorrelator_stays :
    findEvent (ending (.member 7) (eventOf false [memberOf 5 400 none])) 7 = some (eventOf false [memberOf 5 400 none])
      ∧ (eventOf false [memberOf 5 400 none]).closing = false := by decide +kernel

/-- Channel 5 settling with its timer run out, under a mould in a state. -/
def settlingChannel (m : MouldState) (p : MountPhase) : State :=
  ((mounted m).onMould fun x => { x with phase := p }).onChannel 5 fun ch => { ch with state := .settling, settle := some 0, detector := .idle }

theorem witness_SettleMakesLive :
    held (settlingChannel .degraded .none) = false ∧ ((settlingChannel .degraded .none).channel 5).state = .settling
      ∧ ((settlingChannel .degraded .none).channel 5).settle = some 0 ∧ 30000 ≤ 30000 ∧ 5 ∈ (settlingChannel .degraded .none).mould.used
      ∧ (settlingChannel .degraded .none).mould.state = .degraded
      ∧ (∀ d ∈ (settlingChannel .degraded .none).mould.used, d ≠ 5 → hearing (settlingChannel .degraded .none) d = true) := by decide +kernel

theorem witness_SettleMakesLive_mount :
    (settlingChannel .mounting .settling).mould.state = .mounting ∧ (settlingChannel .mounting .settling).mould.phase = .settling
      ∧ ((settlingChannel .mounting .settling).channel 5).settle = some 0
      ∧ (∀ d ∈ (settlingChannel .mounting .settling).mould.used, d ≠ 5 → settled (settlingChannel .mounting .settling) d = true) := by decide +kernel

/-- CLAMP locked. -/
def locked (s : State) : State := s.putLine .clamp { band := .high, raw := true, filtered := true, timer := none }

theorem witness_SettleMakesLive_relock :
    (locked (settlingChannel .suspended .none)).mould.state = .suspended ∧ clampLocked (locked (settlingChannel .suspended .none)) = true
      ∧ clampLocked (settlingChannel .suspended .none) = false
      ∧ (∀ d ∈ (locked (settlingChannel .suspended .none)).mould.used, d ≠ 5 → settled (locked (settlingChannel .suspended .none)) d = true)
      ∧ after (fun t => t.mould.state) (.settleExpiry 5 30000) (locked (settlingChannel .suspended .none)) = some .watching := by decide +kernel

/-- A MOUNT in SETTLING with its order in hand. -/
def mounting : State :=
  ((activated (settlingChannel .mounting .settling)).onMould fun m => { m with order := .mount { cell := 1, take := 3, tag := 0 }, fresh := .flag }).putCell 1
    (.inHand 3 none)

/-- R116: the result, then the mirror. -/
theorem witness_SettleMakesLive_result :
    mounting.mould.order = .mount { cell := 1, take := 3, tag := 0 } ∧ mounting.xu.cells[(1 : CellNo)] = .inHand 3 none ∧ active mounting = true
      ∧ mounting.xu.queue.length + 1 < 16
      ∧ after (fun t => (t.xu.queue.map (·.seed), (t.xu.queue.map (·.body)).head?)) (.settleExpiry 5 30000) mounting
          = some ([0, 1], some (.result 1 3 false (.okFresh .flag))) := by decide +kernel

theorem witness_BiasFaultsChannel :
    held (settlingChannel .degraded .none) = false ∧ ((settlingChannel .degraded .none).channel 5).state = .settling
      ∧ ((settlingChannel .degraded .none).channel 5).settle = some 0 ∧ 30000 < 30001 ∧ (watched.channel 5).state = .live
      ∧ 5 ∈ watched.mould.used ∧ watching watched = true := by decide +kernel

/-- At its deadline, with every member ended. -/
def expiring : State := withEvent (eventOf false [memberOf 4 0 (some (heard 62)), memberOf 5 400 (some (heard 55))]) 1976

theorem witness_DeadlineClosesEvent :
    held expiring = false
      ∧ findEvent expiring 7 = some (eventOf false [memberOf 4 0 (some (heard 62)), memberOf 5 400 (some (heard 55))])
      ∧ diff32 1976 0 ≤ diff32 expiring.timer.clock 0
      ∧ (∀ m ∈ (eventOf false [memberOf 4 0 (some (heard 62)), memberOf 5 400 (some (heard 55))]).members, m.ended ≠ none) := by decide +kernel

theorem witness_DeadlineClosesEvent_open :
    findEvent (withEvent (eventOf false [memberOf 4 0 none]) 1976) 7 = some (eventOf false [memberOf 4 0 none])
      ∧ diff32 1976 0 ≤ diff32 (withEvent (eventOf false [memberOf 4 0 none]) 1976).timer.clock 0
      ∧ ((eventOf false [memberOf 4 0 none]).members.any fun m => decide (m.ended = none)) = true := by decide +kernel

/-- Section 4.7: 400 ticks are 238 mm, in the zone. -/
theorem witness_LocatedEventScores :
    classOf expiring (eventOf false [memberOf 4 0 (some (heard 62)), memberOf 5 400 (some (heard 55))]) = .located 0 238 0
      ∧ (zonesOf expiring)[0]? = some zone ∧ held expiring = false := by decide +kernel

/-- The list selection 3, with the area in a state and the header's list size. -/
def listing (a : AreaState) (size : Nat) (s : State) : State :=
  (activated s).onXu fun x => { x with area := a, listSelection := 3, geometry := { x.geometry with listSize := size } }

/-- R174: listed while ACTIVE, counted outside it, discarded where the header gives no list; and an UNZONED event. -/
theorem witness_LocatedEventScores_offered :
    Selected (listing .active 64 expiring).xu (some zone.verdict) ∧ Selected (listing .active 64 expiring).xu none
      ∧ ¬ Selected (activated expiring).xu (some zone.verdict) ∧ active (listing .active 64 expiring) = true
      ∧ locatedRoom (listing .active 64 expiring) = true ∧ queueRoom (listing .active 64 expiring) = true
      ∧ after (fun t => t.xu.nextLocated) (.eventDeadline 7) (listing .active 64 expiring) = some (some 2) := by decide +kernel

theorem test_list_sizes :
    [64, 0].map (fun n => after (fun t => t.xu.accruals.notListed) (.eventDeadline 7) (listing .areaFault n expiring)) = [some 1, some 0] := by
  decide +kernel

theorem witness_DeadlineClosesEvent_unzoned :
    findEvent (withEvent (eventOf false [memberOf 4 0 (some (heard 62)), memberOf 5 0 (some (heard 55))]) 1976) 7
        = some (eventOf false [memberOf 4 0 (some (heard 62)), memberOf 5 0 (some (heard 55))])
      ∧ classOf (withEvent (eventOf false [memberOf 4 0 (some (heard 62)), memberOf 5 0 (some (heard 55))]) 1976)
          (eventOf false [memberOf 4 0 (some (heard 62)), memberOf 5 0 (some (heard 55))]) = .unzoned 0 300 := by decide +kernel

theorem witness_PositionLiesOnPath :
    classOf expiring (eventOf false [memberOf 4 0 (some (heard 62)), memberOf 5 0 (some (heard 55))]) = .unzoned 0 300
      ∧ classOf expiring (eventOf false [memberOf 4 0 (some (heard 62)), memberOf 5 400 (some (heard 55))]) = .located 0 238 0 := by
  decide +kernel

theorem witness_LocationArithmeticBounded :
    50 ≤ 50 ∧ 50 ≤ 4000 ∧ 100 ≤ 1000 ∧ 1000 ≤ 1000 ∧ (50 : Int).natAbs ≤ pathWindow 50 1000 0
      ∧ 4000 ≤ 4000 ∧ (-105535 : Int).natAbs ≤ pathWindow 4000 100 65535 := by decide +kernel

/-- Each case at its boundary. -/
theorem witness_GuardClampRule :
    guardClamp 600 5 0 = some 0 ∧ guardClamp 600 5 600 = some 600 ∧ guardClamp 600 5 (-5) = some 0 ∧ guardClamp 600 5 (-6) = none
      ∧ guardClamp 600 5 605 = some 600 ∧ guardClamp 600 5 606 = none := by decide +kernel

theorem witness_DecayAndVerdict :
    part30.tWatch < part30.tSuspect ∧ part30.tSuspect < part30.tCrack ∧ part30.hysteresis < part30.tWatch ∧ decayed 9 511 = 511
      ∧ decayed 9 512 = 511 ∧ decayed 0 512 = 512 := by decide +kernel

/-- A mould with a CRACKED zone. -/
def cracked : State :=
  { watched with evid := { watched.evid with tables := some { paths := [path], zones := [{ zone with verdict := .cracked }] } } }

theorem witness_CrackedVerdictStands :
    CrackedAt cracked 0 ∧ cracked.mould.read = .none
      ∧ (∀ (notify : Bool) (tag : Half) (z : Nat) (q : List Instr), cracked.pending ≠ .clearZone notify tag z :: q)
      ∧ ∃ t, step cracked = .next t := by
  refine ⟨?_, ?_, fun _ _ _ _ h => ?_, _, rfl⟩
  · decide +kernel
  · decide +kernel
  · cases h

/-- A zone at the crack threshold after decay, at the edge of a cycle, under stop-on-crack. -/
def cracking : State :=
  { edge .cyc true { watched with
      evid := { watched.evid with part := part30, tables := some { paths := [path], zones := [{ zone with score := 9600, verdict := .suspect }] } } }
    with pending := [.lineFilterExpiry .cyc] }

theorem witness_StopLatchRisesAtCrack :
    ∃ t, step cracking = .next t ∧ cracking.evid.stopLatch = false ∧ t.evid.stopLatch = true :=
  ⟨_, rfl, by decide +kernel, by decide +kernel⟩

theorem witness_EvidenceOrdersCarriedOut :
    OrderRead (readCell watched) 2 ∧ (readCell watched).mould.state = .watching ∧ 0 < (zonesOf (readCell watched)).length
      ∧ active (readCell watched) = true ∧ queueRoom (readCell watched) = true := by decide +kernel

/-- R160: on a full queue the result waits; outside ACTIVE it is discarded. -/
def queued (n : Nat) (s : State) : State := s.onXu fun x => { x with queue := List.replicate n { base := 0, seed := 0, body := .result 2 5 true .ok } }

theorem witness_EvidenceOrdersCarriedOut_waits :
    queueRoom (queued 16 (readCell watched)) = false ∧ active (queued 16 (readCell watched)) = true
      ∧ OrderRead (scanning (.cellRead 2) watched) 2 ∧ active (scanning (.cellRead 2) watched) = false
      ∧ after (fun t => t.xu.cells[(2 : CellNo)]) (.releaseStop true 9) (queued 16 (readCell watched))
          = some (.resultWaiting 0 (some { kind := 5, notify := true, tag := 9 }) .ok) := by decide +kernel

/-- R100: a cleared zone's OK takes the last place, and the mirror follows only with one more free; R160: without room or outside ACTIVE. -/
theorem witness_EvidenceOrdersCarriedOut_clear :
    after (fun t => (t.xu.queue.length, t.xu.mirrorGeneration)) (.clearZone true 9 0) (queued 15 (readCell watched)) = some (16, 0)
      ∧ after (fun t => (t.xu.queue.length, t.xu.mirrorGeneration)) (.clearZone true 9 0) (queued 14 (readCell watched)) = some (16, 1)
      ∧ after (fun t => t.xu.cells[(2 : CellNo)]) (.clearZone true 9 255) (queued 16 (readCell watched))
          = some (.resultWaiting 0 (some { kind := 4, notify := true, tag := 9 }) .ok)
      ∧ after (fun t => t.xu.cells[(2 : CellNo)]) (.clearZone true 9 0) (scanning (.cellRead 2) watched) = some .free := by decide +kernel

/-- R166: cell 5, returned above the order's cell, is freed in the same scan, and ATTN# goes down with it. -/
theorem test_attn_in_scan :
    after (fun t => (t.xu.cells[(5 : CellNo)], t.xu.attn)) (.releaseStop false 0)
        (((readCell watched).putCell 5 .answered).onXu fun x => { x with attn := true }) = some (.free, false) := by decide +kernel

/-- The lamp of each verdict, and a blink half that is over. -/
theorem witness_LampFollowsVerdict :
    mouldVerdict cracked = some .cracked ∧ mouldVerdict watched = some .watch ∧ mouldVerdict State.reset = none
      ∧ cracked.board.supplyOk = true ∧ held cracked = false
      ∧ ({ resetEvid with blink := some { on := true, left := 0 } } : Evidence).blink = some { on := true, left := 0 } := by decide +kernel

/-- A mould present, not yet mounted. -/
def present : State := readCell { State.reset with lines := { resetLines with mpres := { resetLine with band := .high, raw := true, filtered := true } } }

theorem witness_MountStartsReading :
    OrderRead present 2 ∧ present.mould.state = .empty ∧ mouldPresent present = true ∧ 0x8000 % 8 = 0
      ∧ recordFits present.xu.geometry 0x8000 8 = true ∧ recordFits present.xu.geometry 0xFFFF8 8 = true
      ∧ recordFits present.xu.geometry 0x100000 8 = false := by decide +kernel

/-- Each refusal's clause: a mould mounted, none present, offsets out of place; EMPTY; the tester's items; the zone. -/
theorem witness_OrdersRefused :
    OrderRead (readCell watched) 2 ∧ active (readCell watched) = true ∧ queueRoom (readCell watched) = true
      ∧ (readCell watched).mould.state ≠ .empty ∧ OrderRead present 2 ∧ active present = true ∧ queueRoom present = true
      ∧ present.mould.state = .empty ∧ recordFits present.xu.geometry 0x100000 8 = false ∧ mouldPresent (readCell State.reset) = false
      ∧ watching (readCell watched) = true ∧ (∀ c ∈ (readCell watched).mould.used, c.val ≠ 3) ∧ (zonesOf (readCell watched)).length ≤ 1 := by
  decide +kernel

theorem witness_DismountTakesMouldOff :
    OrderRead (readCell watched) 2 ∧ (readCell watched).mould.state = .watching ∧ (readCell watched).corr.events = []
      ∧ (readCell watched).tester = [] ∧ NoHit (readCell watched) ∧ active (readCell watched) = true ∧ queueRoom (readCell watched) = true
      ∧ mountingFits (readCell watched) = true
      ∧ mountingFits ((readCell watched).onMould fun m => { m with offset := some 0xFFFF8 }) = false
      ∧ (readCell watched).corr.tallies.cut ≤ 4294967295 := by decide +kernel

/-- R55, R56: a CLOSING event whose last member ends only by the cut closes CUT. -/
def cutting : State :=
  ((withHit 4 .correlator (withEvent (eventOf true [memberOf 4 0 (some (heard 62)), memberOf 5 400 none]) 2000)).putPlace 5 (.member 7))

theorem test_cut_closes_cut :
    after (fun t => (t.corr.events.length, t.corr.tallies.cut, t.corr.tallies.located)) (.lineFilterExpiry .clamp) (edge .clamp false cutting)
        = some (0, 1, 1) := by decide +kernel

theorem test_close_closes_cut :
    after (fun t => t.xu.queue.filterMap fun j => match j.body with | .cycle _ _ _ r => some r.tallies.cut | _ => none) (.lineFilterExpiry .cyc)
        (edge .cyc true (activated cutting)) = some [1] := by decide +kernel

/-- A MOUNT in CLAMP_WAIT whose timer has run out. -/
def waitingClamp : State :=
  (activated (mounted .mounting)).onMould fun m => { m with phase := .clampWait, timer := some 0, order := .mount { cell := 1, take := 3, tag := 0 } }

theorem witness_MountEndsWithoutMould :
    waitingClamp.mould.state = .mounting ∧ held waitingClamp = false ∧ waitingClamp.mould.phase = .clampWait
      ∧ waitingClamp.mould.timer = some 0 ∧ NoHit waitingClamp ∧ waitingClamp.mould.order = .mount { cell := 1, take := 3, tag := 0 }
      ∧ (waitingClamp.putCell 1 (.inHand 3 none)).xu.cells[(1 : CellNo)] = .inHand 3 none ∧ active waitingClamp = true
      ∧ queueRoom waitingClamp = true ∧ OrderRead (scanning (.cellRead 2) waitingClamp) 2 := by decide +kernel

/-- A MOUNT with a read on the bus. -/
def reading (r : MountRead) (f : Option FixedPart) : State :=
  present.onMould fun m => { m with state := .mounting, phase := .reading, read := r, offset := some 0x8000, fixed := f }

/-- Two channels, one path, one zone. -/
def fixedPart : FixedPart := { identity := 17, channelCount := 2, pathCount := 1, zoneCount := 1, settleCode := 1 }

/-- The fixed part's bytes, of a record that fits, and one whose record does not. -/
theorem witness_FixedPartRead :
    held (reading .fixed none) = false ∧ (reading .fixed none).mould.read = .fixed ∧ (bytesWord 17 ++ [2, 1, 1, 1]).length = 8
      ∧ recordFits (reading .fixed none).xu.geometry ((reading .fixed none).mould.offset.getD 0) (recordExtent 2 1 1) = true
      ∧ recordFits (reading .fixed none).xu.geometry 0xFFFF8 (recordExtent 2 1 1) = false := by decide +kernel

/-- The rest of the description of `path` and `zone`. -/
def descriptionPart : List Byte :=
  [4, 45, 5, 45] ++ ([4, 5] ++ bytes16 600 ++ bytes16 310 ++ bytes16 40 ++ [5]) ++ ([0, 9] ++ bytes16 200 ++ bytes16 280 ++ [45] ++ bytes16 0x0C12)

theorem witness_DescriptionPartRead :
    held (reading .description (some fixedPart)) = false ∧ (reading .description (some fixedPart)).mould.read = .description
      ∧ (reading .description (some fixedPart)).mould.fixed = some fixedPart ∧ descriptionPart.length = descriptionBytes fixedPart
      ∧ validate .omplar1640 (parseDescription fixedPart descriptionPart) = none
      ∧ validate .omplar0840 (parseDescription fixedPart (List.replicate 22 0)) = some (6, 1) := by decide +kernel

/-- The description of `path` and `zone` builds them. -/
theorem test_description_tables :
    (parseDescription fixedPart descriptionPart).paths.map buildPath = [path]
      ∧ (parseDescription fixedPart descriptionPart).zones.map buildZone
          = [{ zone with score := 0, verdict := .sound, run := 0, lastActive := none, lifetime := 0 }] := by decide +kernel

/-- A context's bytes with this format tag and zone count. -/
def contextPart (tag zones : Nat) : List Byte :=
  bytes32 tag ++ bytes32 212 ++ bytes32 9318 ++ [byteOf zones, 1, 2] ++ (bytes16 5000 ++ [1, 3, 1] ++ bytes32 1405 ++ bytes32 37)
    ++ ([1] ++ bytes16 305)

theorem witness_ContextPartRead :
    held (reading .context (some fixedPart)) = false ∧ (reading .context (some fixedPart)).mould.read = .context
      ∧ (reading .context (some fixedPart)).mould.fixed = some fixedPart ∧ (contextPart 0x00020001 1).length = contextBytes 1 1
      ∧ (parseContext 1 1 (contextPart 0x00020001 1)).formatTag = 0x00020001 ∧ (parseContext 1 1 (contextPart 0x00020001 1)).zoneCount = 1
      ∧ (parseContext 1 1 (contextPart 0x00020000 1)).formatTag ≠ 0x00020001 ∧ (parseContext 1 1 (contextPart 0x00020001 2)).zoneCount ≠ 1
      ∧ (parseContext 1 1 (contextPart 0x00020001 1)).velocities = [some 305] := by decide +kernel

theorem witness_ClampLocksAndUnlocks :
    held (edge .clamp true (mounted .suspended)) = false ∧ EdgeDue (edge .clamp true (mounted .suspended)) .clamp
      ∧ (edge .clamp true (mounted .suspended)).lines.clamp.raw = true ∧ (edge .clamp true (mounted .suspended)).mould.state = .suspended
      ∧ EdgeDue (edge .clamp false watched) .clamp ∧ (edge .clamp false watched).lines.clamp.raw = false
      ∧ (edge .clamp false watched).mould.state = .watching ∧ EdgeDue (edge .clamp true waitingClamp) .clamp
      ∧ (edge .clamp false (settlingChannel .mounting .settling)).mould.phase = .settling
      ∧ (edge .clamp true State.reset).mould.state = .empty := by decide +kernel

theorem witness_MouldPulledLeaves :
    held (edge .mpres false watched) = false ∧ EdgeDue (edge .mpres false watched) .mpres ∧ (edge .mpres false watched).lines.mpres.raw = false
      ∧ (edge .mpres false watched).mould.state ≠ .empty ∧ (edge .mpres false watched).mould.state ≠ .dismounting
      ∧ EdgeDue (edge .mpres true State.reset) .mpres ∧ (edge .mpres true State.reset).lines.mpres.raw = true := by decide +kernel

/-- With 14 jobs waiting the condition's record and the save find room; with 15 the save waits. -/
theorem witness_MouldPulledLeaves_save :
    NoHit (edge .mpres false (queued 14 (activated watched))) ∧ active (edge .mpres false (queued 14 (activated watched))) = true
      ∧ mountingFits (edge .mpres false (queued 14 (activated watched))) = true ∧ journalRoom (edge .mpres false (queued 14 (activated watched))) = true
      ∧ after (fun t => (t.mould.state, t.xu.queue.length)) (.lineFilterExpiry .mpres) (edge .mpres false (queued 14 (activated watched)))
          = some (.empty, 16)
      ∧ after (fun t => (t.mould.state, t.xu.queue.length)) (.lineFilterExpiry .mpres) (edge .mpres false (queued 15 (activated watched)))
          = some (.dismounting, 16) := by decide +kernel

/-- A MOUNT in CLAMP_WAIT whose mould is pulled, with jobs waiting; its order is in cell 1. -/
def pulledMount (jobs : Nat) : State := edge .mpres false (queued jobs (waitingClamp.putCell 1 (.inHand 3 none)))

/-- The bodies of CANCELLED results in a queue, with their cells. -/
def cancelledCells (q : List Job) : List CellNo :=
  q.filterMap fun j =>
    match j.body with
    | .result k _ _ .cancelled => some k
    | _ => none

/-- R123, R160: behind the condition's record CANCELLED finds room with 14 jobs waiting and waits in its cell with 15; outside ACTIVE it
is discarded. -/
theorem witness_MouldPulledLeaves_mount :
    NoHit (pulledMount 14) ∧ (pulledMount 14).corr.events = [] ∧ (pulledMount 14).tester = [] ∧ active (pulledMount 14) = true
      ∧ (pulledMount 14).mould.state = .mounting ∧ (pulledMount 14).xu.cells[(1 : CellNo)] = .inHand 3 none
      ∧ after (fun t => (t.mould.state, t.mould.order, t.xu.queue.length, cancelledCells t.xu.queue)) (.lineFilterExpiry .mpres) (pulledMount 14)
          = some (.empty, .none, 16, [1])
      ∧ after (fun t => (t.xu.queue.length, t.xu.cells[(1 : CellNo)])) (.lineFilterExpiry .mpres) (pulledMount 15)
          = some (16, .resultWaiting 3 none .cancelled)
      ∧ after (fun t => (t.xu.queue.length, t.xu.cells[(1 : CellNo)])) (.lineFilterExpiry .mpres)
            ((pulledMount 3).onXu fun x => { x with area := .areaFault }) = some (3, .free) := by decide +kernel

theorem witness_TestJoinsQueue :
    OrderRead (readCell watched) 2 ∧ (readCell watched).variant = .omplar1640 ∧ watching (readCell watched) = true
      ∧ 4 ∈ (readCell watched).mould.used ∧ ((pathsOf (readCell watched)).any fun p => p.touches 4) = true ∧ (readCell watched).tester.length < 8
      ∧ (readCell watched).tester = [] ∧ (readCell watched).timer.press = .stopped ∧ ((readCell watched).channel 4).state = .live
      ∧ ((partnersOf [path] 4).any fun p => live (readCell watched) p.chan) = true ∧ 100 ≤ 100 ∧ 7 ≤ 7 ∧ 15 ≤ 15 ∧ 255 ≤ 255 := by
  decide +kernel

/-- A LISTENING test at its end tick, its source PULSING. -/
def listening (hitOpen : Bool) (used : Nat) : State :=
  (clockTo 1976 { watched with tester := [{ testOf .listening with
      used := used, attempt := some { pulseTick := 0, endTick := 1976 }
      partners := (partnersOf [path] 4).map fun p => { p with routed := true, hitOpen := hitOpen } }] }).onChannel 4 fun ch =>
    { ch with state := .pulsing, detector := .idle }

theorem witness_AttemptEnds :
    held (listening true 0) = false ∧ diff32 1976 0 ≤ diff32 (listening true 0).timer.clock 0 ∧ ((listening true 0).channel 4).state = .pulsing
      ∧ ((listening true 0).tester.all fun t => decide (t.state = .listening) && t.attempt.isSome && t.partners.any fun p => p.routed && p.hitOpen)
          = true := by decide +kernel

/-- One attempt of three is used, and the partner has not been heard: a rest follows. -/
theorem witness_AttemptEnds_rests :
    ((listening false 0).tester.all fun t =>
      (t.partners.all fun p => !p.hitOpen)
        && ((t.partners.map (judgedPartner (t.used + 1))).any fun p => decide (p.outcome = none) && live (listening false 0) p.chan)
        && decide (t.used + 1 ≠ t.allowed)) = true := by decide +kernel

/-- The third attempt of three: the test is over. -/
theorem witness_AttemptEnds_over :
    ((listening false 2).tester.all fun t => decide (t.used + 1 = t.allowed)) = true ∧ (listening false 2).tester.tail = []
      ∧ ((listening false 2).tester.map (·.source)) = [4] := by decide +kernel

/-- R140, R146: the third attempt hears the partner at 305 µm a tick, and the apply flag is set. -/
def applying : State :=
  (listening false 2).onTest fun x => { x with partners := x.partners.map fun p =>
    { p with heardNow := some { transit := 1982, peak := 64, calibration := .ok, velocity := some 305 } } }

theorem witness_AttemptEnds_applies :
    (applying.tester.all fun x => x.apply && decide ((x.partners.map (·.path)).Nodup)) = true
      ∧ after (fun t => (pathsOf t).map fun p => (p.velocity, p.calibrated, p.window)) .attemptEndTick applying
          = some [(305, true, pathWindow 600 305 40)] := by decide +kernel

/-- R141: a test abandoned on its first attempt judges SKIPPED afresh; one with an attempt counted does not. -/
theorem test_skipped_afresh :
    [0, 1].map (fun n => after (fun t => t.tester.map fun x => x.partners.map (·.outcome)) (.lineFilterExpiry .cyc)
        (edge .cyc true ((listening false n).onTest fun x =>
          { x with state := .draining, partners := x.partners.map fun p => { p with outcome := some .skipped } })))
      = [some [[none]], some [[some .skipped]]] := by decide +kernel

/-- A test whose rest is over. -/
def rested (p : Press) : State :=
  { watched with tester := [{ testOf .resting with used := 1, rest := some 0 }], timer := { resetTimer with press := p } }

theorem witness_RestEnds :
    held (rested .running) = false ∧ ((rested .running).tester.map fun t => (t.state, t.rest, t.used)) = [(.resting, some 0, 1)]
      ∧ (rested .running).timer.press = .running ∧ ((rested .running).channel 4).state ≠ .fault ∧ (rested .stopped).timer.press = .stopped
      ∧ watching (rested .stopped) = true ∧ ((rested .stopped).channel 4).state = .live
      ∧ ((testOf .resting).partners.any fun p => decide (p.outcome ≠ some .skipped) && live (rested .stopped) p.chan) = true
      ∧ ((testOf .resting).partners.map (·.chan)).Nodup
      ∧ after (fun t => ((t.channel 5).route, t.tester.map fun x => x.attempt.map (·.endTick))) .restExpiry (rested .stopped)
          = some (.tester 0 1976, [some 1976]) := by decide +kernel

theorem witness_RegisterWrites :
    held State.reset = false ∧ State.reset.xu.en = false ∧ (activated State.reset).xu.en = true ∧ held (activated State.reset) = false
      ∧ (1 : Word).toNat % 2 = 1 ∧ (0 : Word).toNat % 2 = 0 := by decide +kernel

/-- An enable in a phase. -/
def enabling (p : EnablePhase) : State := State.reset.onXu fun x => { x with en := true, enabling := p }

theorem witness_EnableStarts :
    held State.reset = false ∧ State.reset.xu.en = false ∧ (activated State.reset).xu.en = true
      ∧ (enabling .waiting).xu.enabling = .waiting ∧ (enabling .waiting).xu.issue = none ∧ (enabling .waiting).xu.strayEnable = .none
      ∧ ((enabling .waiting).onXu fun x => { x with issue := some { accepted := 0, onBus := true } }).xu.issue ≠ none := by decide +kernel

/-- A valid header: 16 journal records at 0x3000 and 64 list records at 0x4000. -/
def header (version : Nat) : List Byte :=
  bytes32 version ++ bytes32 0x100000 ++ bytes32 0x3000 ++ bytes32 16 ++ bytes32 0x4000 ++ bytes32 64 ++ bytes32 1 ++ bytes32 1 ++ bytes32 0
    ++ bytes32 0 ++ bytes32 7

theorem witness_EnableCompletes :
    held (enabling .headerRead) = false ∧ (enabling .headerRead).xu.enabling = .headerRead ∧ (header 1).length = 44
      ∧ headerCode (header 1) = 0 ∧ headerCode (header 2) = 1 ∧ (header 2).length = 44
      ∧ (capabilityWrite State.reset).bytes.length ≤ 2 ^ 64
      ∧ (enabling (.capabilityWrite (capabilityWrite State.reset))).xu.enabling = .capabilityWrite (capabilityWrite State.reset) := by decide +kernel

theorem witness_DisableClears :
    held (activated watched) = false ∧ (activated watched).xu.en = true ∧ (activated watched).xu.enabling = .none
      ∧ (activated watched).mould.state ≠ .mounting ∧ (activated watched).mould.state ≠ .dismounting
      ∧ (activated watched).mould.pendingSave = none ∧ (enabling .waiting).xu.enabling ≠ .none ∧ State.reset.xu.en = false := by decide +kernel

/-- A DISMOUNTING mould whose save is the last of this many waiting jobs. -/
def saving (n : Nat) : State :=
  (activated (mounted .dismounting)).onXu fun x =>
    { x with
      issue := some { accepted := 0, onBus := true }
      queue := List.replicate n { base := 0, seed := 0, body := .result 2 5 true .ok }
        ++ [{ base := 0, seed := 0, body := .save 0x8000 (contextCopy .dismount 1 watched) }] }

/-- R127, R151: a waiting DISMOUNT save is discarded and the mould leaves; one in issue goes on. -/
theorem witness_DisableClears_saves :
    (saving 1).mould.state = .dismounting ∧ (saving 1).xu.issue ≠ none ∧ (saving 1).xu.enabling = .none
      ∧ [1, 0].map (fun n => after (fun t => t.mould.state) .disable (saving n)) = [some .empty, some .dismounting]
      ∧ after (fun t => t.mould.state) .disable ((activated (mounted .dismounting)).onMould fun m => { m with pendingSave := some .dismount })
          = some .empty := by decide +kernel

/-- R151: a MOUNT in READING is cancelled; R175: an enable's sequences are discarded with it. -/
theorem witness_DisableClears_reading :
    (reading .description (some fixedPart)).mould.phase = .reading ∧ (reading .description (some fixedPart)).xu.enabling = .none
      ∧ after (fun t => t.mould.state) .disable (reading .description (some fixedPart)) = some .empty
      ∧ after (fun t => (t.xu.nextJournal, t.xu.consumedLocated)) .disable
          ((activated watched).onXu fun x => { x with area := .areaFault, enabling := .capabilityWrite ⟨0, [0]⟩ }) = some (none, none) := by
  decide +kernel

theorem witness_ScanStarts :
    active (activated watched) = true ∧ (activated watched).xu.scan.phase = .idle ∧ held (activated watched) = false
      ∧ (scanning .header (activated watched)).xu.scan.phase = .header ∧ (scanning .header (activated watched)).xu.scan.abandoned = false
      ∧ active (scanning .header (activated watched)) = true ∧ active State.reset = false ∧ (List.replicate 12 (0 : Byte)).length = 12 := by
  decide +kernel

theorem witness_ProgrammeTaken :
    held (scanning .programme (activated watched)) = false ∧ (scanning .programme (activated watched)).xu.scan.abandoned = false
      ∧ (scanning .programme (activated watched)).xu.scan.phase = .programme ∧ (List.replicate 172 (0 : Byte)).length = 172
      ∧ 0 < heldCount (List.replicate 172 0) ∧ (scanning (.echo ⟨0, [0]⟩) (activated watched)).xu.scan.phase = .echo ⟨0, [0]⟩
      ∧ (⟨0, [0]⟩ : BusWrite).bytes.length ≤ 2 ^ 64 := by decide +kernel

/-- A page of zeros holds eleven groups, among them the CYC edge; the notice mask 5 and the list selection 2 with level 1 are taken. -/
theorem witness_ProgrammeTaken_groups :
    firstHeld (List.replicate 172 0) = 0
      ∧ after (fun t => (t.xu.noticeMask, t.xu.listSelection, t.xu.listLevel, t.timer.installed.cycEdge)) (.programmeReadDone
          (List.replicate 163 0 ++ [2, 1, 0, 0, 0, 0, 0, 5, 0])) (scanning .programme (activated watched)) = some (5, 2, 1, .rising) := by
  decide +kernel

/-- Cell 7, the last, is the first POSTED one; and a board with none. -/
theorem witness_CellsTaken :
    held (scanning .board (activated watched)) = false ∧ (scanning .board (activated watched)).xu.scan.phase = .board
      ∧ (List.replicate 28 (0 : Byte) ++ bytesWord wordPosted).length = 32 ∧ w32 (List.replicate 28 0 ++ bytesWord wordPosted) 28 = wordPosted
      ∧ (scanning .board (activated watched)).xu.cells[(7 : CellNo)].takeable = true
      ∧ (∀ j : CellNo, j < 7 → w32 (List.replicate 28 0 ++ bytesWord wordPosted) (4 * j.val) ≠ wordPosted)
      ∧ (∀ j : CellNo, w32 (List.replicate 32 0) (4 * j.val) ≠ wordPosted) ∧ (scanning .board (activated watched)).xu.scan.mark = none
      ∧ (scanning (.take 7) (activated watched)).xu.scan.phase = .take 7 ∧ wordEmpty ≠ wordPosted := by decide +kernel

/-- A job in issue, with this many operations accepted. -/
def issued (b : JobBody) (n : Nat) : State :=
  (activated watched).onXu fun x => { x with queue := [{ base := 0x10000, seed := 0, body := b }], issue := some { accepted := n, onBus := true } }

/-- A condition record's job. -/
def conditionBody : JobBody := .condition 0x3000 1 false { condition := .stall, chan := none, cycle := 0, tick := 0 }

theorem witness_JobsGoOn :
    held (issued conditionBody 1) = false ∧ (issued conditionBody 1).xu.issue = some { accepted := 1, onBus := true }
      ∧ (jobWrites { base := 0x10000, seed := 0, body := conditionBody }).length = 2
      ∧ (issued (.result 2 5 true .ok) 1).xu.issue = some { accepted := 1, onBus := true }
      ∧ (jobWrites { base := 0x10000, seed := 0, body := .result 2 5 true .ok }).length = 1
      ∧ ((issued (.result 2 5 true .ok) 1).putCell 2 (.inHand 5 none)).xu.cells[(2 : CellNo)] = .inHand 5 none := by decide +kernel

/-- R163: with no order of the mould manager in hand, the first waiting result takes the room a job leaves. -/
theorem witness_JobsGoOn_waiting :
    (issued conditionBody 1).mould.order = .none ∧ active ((issued conditionBody 1).putCell 3 (.resultWaiting 8 none .ok)) = true
      ∧ (∀ j : CellNo, j < 3 → ((issued conditionBody 1).putCell 3 (.resultWaiting 8 none .ok)).xu.cells[j] = .free)
      ∧ after (fun t => (t.xu.queue.map (·.body), t.xu.cells[(3 : CellNo)])) .jobWriteAccepted
          ((issued conditionBody 1).putCell 3 (.resultWaiting 8 none .ok)) = some ([.result 3 8 false .ok], .inHand 8 none) := by decide +kernel

theorem witness_BusErrorFaultsArea :
    held (scanning .board (activated watched)) = false ∧ (scanning .board (activated watched)).xu.area = .active
      ∧ (scanning .board (activated watched)).xu.enabling = .none ∧ (scanning .board (activated watched)).xu.scan.phase ≠ .idle
      ∧ (reading .fixed none).mould.read ≠ .none ∧ (reading .fixed none).xu.area = .active ∧ (reading .fixed none).mould.phase = .reading
      ∧ (issued conditionBody 1).xu.issue = some { accepted := 1, onBus := true } ∧ (enabling .headerRead).xu.enabling = .headerRead
      ∧ State.reset.xu.scan.phase = .idle ∧ State.reset.xu.issue = none ∧ State.reset.mould.read = .none ∧ State.reset.mould.strayRead = false := by
  decide +kernel

theorem witness_MemoryStaysCanonical :
    ∃ t, areaWf [(0, 1), (5, 2)] = true ∧ step { State.reset with area := [(0, 1), (5, 2)] } = .next t := ⟨_, by decide +kernel, rfl⟩

theorem witness_EventListLaw : ∃ t, EventsOk expiring.corr.events ∧ FittedOk expiring ∧ step expiring = .next t :=
  ⟨_, by decide +kernel, by decide +kernel, rfl⟩

theorem witness_ScoreAndRunLaw : ∃ t, ScoresOk cracking ∧ step cracking = .next t := ⟨_, by decide +kernel, rfl⟩

theorem witness_PulseLaw : ∃ t, PulseOk (listening false 0) ∧ step (listening false 0) = .next t := ⟨_, by decide +kernel, rfl⟩

theorem witness_QueueBounds :
    ∃ t, QueueOk (issued conditionBody 1) ∧ TestsOk (listening false 0) ∧ TestsOk (issued conditionBody 1) ∧ step (issued conditionBody 1) = .next t :=
  ⟨_, by decide +kernel, by decide +kernel, by decide +kernel, rfl⟩

theorem witness_AreaStateLaw : ∃ t, AreaOk (activated watched).xu ∧ step (activated watched) = .next t := ⟨_, by decide +kernel, rfl⟩

end Sys2Proof.Tests
end

section
/-! PROOF. A CYC edge (R4 to R6): the cycle close through the blocks, and the cycle that opens. -/

namespace Sys2Proof.Machine

open Sys2Proof

variable {s t u : State}

/-! ## Requests to the exchange unit: jobs join the back of the queue, and no hit opens -/

/-- The jobs waiting stay at the front of the queue, and no hit opens. -/
structure Requests (s t : State) : Prop where
  queue : s.xu.queue <+: t.xu.queue
  hits : NoHit s → NoHit t

theorem Requests.refl (s : State) : Requests s s := ⟨List.prefix_rfl, id⟩

theorem Requests.trans (h : Requests s t) (k : Requests t u) : Requests s u :=
  ⟨h.queue.trans k.queue, fun e => k.hits (h.hits e)⟩

/-- No hit opens where the front end stands. -/
theorem noHit_of_front (h : t.front = s.front) (k : NoHit s) : NoHit t := by
  intro c
  have e : t.channel c = s.channel c := by simp [State.channel, h]
  rw [e, k c]

theorem Requests.of_same (h : t.xu.queue = s.xu.queue) (k : t.front = s.front) : Requests s t :=
  ⟨by rw [h], noHit_of_front k⟩

theorem addJob_requests (b : JobBody) (s : State) : Requests s (addJob b s) := ⟨List.prefix_append _ _, noHit_of_front rfl⟩

theorem requestMirror_requests (s : State) : Requests s (requestMirror s) := by
  unfold requestMirror
  split
  · exact .trans (t := s.onXu _) (.of_same rfl rfl) (addJob_requests _ _)
  · exact .refl s

theorem resultGoesOn_requests (k : CellNo) (take : Word) (h : Option OrderHead) (r : OrderResult) (s : State) :
    Requests s (resultGoesOn k take h r s) := by
  unfold resultGoesOn
  split
  · exact .of_same rfl rfl
  · split
    · exact addJob_requests _ _
    · exact .of_same rfl rfl

theorem giveResult_requests (o : OrderRef) (r : OrderResult) (s : State) : Requests s (giveResult o r s) := by
  unfold giveResult
  split
  · split
    · exact resultGoesOn_requests _ _ _ _ _
    · exact .refl s
  · exact .refl s

theorem answerOrder_requests (r : OrderResult) (s : State) : Requests s (answerOrder r s) := by
  unfold answerOrder
  split
  · exact .refl s
  · exact giveResult_requests _ _ _
  · exact giveResult_requests _ _ _

theorem askScan_requests (k : ScanKind) (s : State) : Requests s (askScan k s) := by
  unfold askScan
  split <;> exact .of_same rfl rfl

/-! ### The mould manager's offers -/

/-- A channel record changed, its hit left as it is. -/
theorem onChannel_noHit (c : ChannelNo) {f : Channel → Channel} (hf : ∀ x, (f x).hit = x.hit) (h : NoHit s) :
    NoHit (s.onChannel c f) := by
  intro d
  by_cases e : d = c
  · subst e
    rw [State.channel_onChannel_self, hf, h d]
  · rw [State.channel_onChannel_ne s e, h d]

theorem onChannel_requests (c : ChannelNo) {f : Channel → Channel} (hf : ∀ x, (f x).hit = x.hit) (s : State) :
    Requests s (s.onChannel c f) := ⟨List.prefix_rfl, onChannel_noHit c hf⟩

theorem Requests.foldl {α : Type} (f : State → α → State) (h : ∀ s x, Requests s (f s x)) (xs : List α) (s : State) :
    Requests s (xs.foldl f s) := by
  induction xs generalizing s with
  | nil => exact .refl s
  | cons x xs ih => exact (h s x).trans (ih _)

theorem onMould_requests (f : MouldManager → MouldManager) (s : State) : Requests s (s.onMould f) := .of_same rfl rfl

theorem unsetThresholds_requests (s : State) : Requests s (unsetThresholds s) :=
  .foldl _ (fun t c => onChannel_requests c (f := fun ch => { ch with base := none }) (fun _ => rfl) t) _ _

theorem leaveMould_requests (s : State) : Requests s (leaveMould s) :=
  .trans (t := discardTables s) (.of_same rfl rfl) ((unsetThresholds_requests _).trans (onMould_requests _ _))

theorem createSave_requests (b : SavedBy) (s : State) : Requests s (createSave b s) :=
  (onMould_requests _ _).trans (addJob_requests _ _)

theorem leaveWithMirror_requests (s : State) : Requests s (leaveWithMirror s) :=
  (leaveMould_requests s).trans (requestMirror_requests _)

theorem completeDismount_requests (r : OrderResult) (s : State) : Requests s (completeDismount r s) :=
  (leaveMould_requests s).trans <| (answerOrder_requests r _).trans <|
    (onMould_requests _ _).trans (requestMirror_requests _)

theorem offerSave_requests (b : SavedBy) (s : State) : Requests s (offerSave b s) := by
  unfold offerSave
  split
  · exact (createSave_requests _ s).trans (leaveWithMirror_requests _)
  · exact createSave_requests _ s
  · exact onMould_requests _ s
  · exact onMould_requests _ s
  · exact completeDismount_requests _ s
  · exact leaveWithMirror_requests s

theorem offerCheckpoint_requests (s : State) : Requests s (offerCheckpoint s) := by
  unfold offerCheckpoint
  split
  · exact offerSave_requests _ s
  · exact .refl s

theorem offerPending_requests (s : State) : Requests s (offerPending s) := by
  unfold offerPending
  split
  · exact offerSave_requests _ s
  · exact offerSave_requests _ s
  · exact .refl s

/-! ## The hits at a close (R38) -/

theorem releaseSource_noHit (c : ChannelNo) (h : NoHit s) : NoHit (releaseSource c s) := by
  unfold releaseSource
  split
  · exact noHit_of_front ((mouldFollow_keeps c _).front rfl) (onChannel_noHit c (fun _ => rfl) h)
  · exact h

theorem releaseIn_noHit (a b : Nat) (h : NoHit s) : NoHit (releaseIn a b s) := by
  unfold releaseIn releaseHead
  split
  · split
    · exact h
    · exact releaseSource_noHit _ h
  · exact h

/-- A hit end that is only noted leaves the front end as it is. -/
theorem deliverEnd_noted_front (c : ChannelNo) (r : Receiver) (e : HitEnd) (s : State) :
    (deliverEnd true c r e s).front = s.front := by
  cases r with
  | correlator => exact (noteCorrEnd_keeps c e s).front rfl
  | tester => exact State.onTest_front s _

/-- Once a channel is cut, it has no hit. -/
theorem cutHit_hit_self (c : ChannelNo) (s : State) : ((cutHit true Channel.armed c s).channel c).hit = none := by
  unfold cutHit
  split
  · assumption
  · rw [State.channel, deliverEnd_noted_front]
    exact congrArg Channel.hit (State.channel_onChannel_self s c _)

/-- A cut changes no other channel. -/
theorem cutHit_channel_ne {c d : ChannelNo} (h : d ≠ c) (s : State) :
    (cutHit true Channel.armed c s).channel d = s.channel d := by
  unfold cutHit
  split
  · rfl
  · rw [State.channel, deliverEnd_noted_front]
    exact State.channel_onChannel_ne s h _

/-- After the cuts of some channels none of them has a hit, nor has one that had none. -/
theorem cutHits_of_list (cs : List ChannelNo) (s : State) (d : ChannelNo) (h : d ∈ cs ∨ (s.channel d).hit = none) :
    ((cs.foldl (fun s c => cutHit true Channel.armed c s) s).channel d).hit = none := by
  induction cs generalizing s with
  | nil => simpa using h
  | cons c cs ih =>
    refine ih _ ?_
    by_cases e : d = c
    · exact .inr (e ▸ cutHit_hit_self d s)
    · rw [cutHit_channel_ne e]
      simpa [e] using h

theorem mem_allChannels (c : ChannelNo) : c ∈ allChannels := by
  fin_cases c <;> decide

theorem cutHits_noHit (s : State) : NoHit (cutHits s) := fun c => cutHits_of_list allChannels s c (.inl (mem_allChannels c))

/-- No hit is open after the acoustic part of a close. -/
theorem closeSound_noHit (part : Nat) (s : State) : NoHit (closeSound part s) :=
  releaseIn_noHit _ _ (noHit_of_front ((cutEvents_keeps _).front rfl) (cutHits_noHit _))

/-! ## The events at a close (R55, R58) -/

theorem handOn_corr (e : Event) (c : CloseCause) (k : EventClass) (s : State) : (handOn e c k s).corr = s.corr := by
  have offer (r : LocatedOffer) (s : State) : (offerLocated r s).corr = s.corr :=
    (offerLocated_keeps (p := exchangeOnly) r s).corr rfl
  cases k with
  | unzoned path pos => exact offer _ s
  | located path pos zone => exact offer _ _
  | empty | continuous | ungated | unlocated => rfl

/-- A CUT close counts one event cut. -/
theorem closeEvent_cut (e : Event) (s : State) : (closeEvent e .cut s).corr.tallies.cut = countUp s.corr.tallies.cut := by
  unfold closeEvent
  rw [handOn_corr]
  cases classOf s e <;> rfl

/-- The close of every event empties the list. -/
theorem cutEvents_events (s : State) : (cutEvents s).corr.events = [] := by
  have fold (es : List Event) (a : State) : (es.foldl (fun s e => closeEvent e .cut s) a).corr.events = a.corr.events := by
    induction es generalizing a with
    | nil => rfl
    | cons e es ih => rw [List.foldl_cons, ih, closeEvent_events]
  exact fold _ _

/-- The close of every event counts each as cut. -/
theorem cutEvents_cut (h : s.corr.tallies.cut ≤ top32) :
    (cutEvents s).corr.tallies.cut = min top32 (s.corr.tallies.cut + s.corr.events.length) := by
  have fold (es : List Event) (a : State) (ha : a.corr.tallies.cut ≤ top32) :
      (es.foldl (fun s e => closeEvent e .cut s) a).corr.tallies.cut = min top32 (a.corr.tallies.cut + es.length) := by
    induction es generalizing a with
    | nil => simp [ha]
    | cons e es ih =>
      have step : (closeEvent e .cut a).corr.tallies.cut = min top32 (a.corr.tallies.cut + 1) := closeEvent_cut e a
      rw [List.foldl_cons, ih _ (by omega), step, List.length_cons]
      omega
  exact fold _ _ h

/-! ## A close that neither ends a test nor lists an event -/

/-- The exchange unit and the free values stand, and the tester stays empty. -/
structure Silent (s t : State) : Prop where
  xu : t.xu = s.xu
  freeNext : t.freeNext = s.freeNext
  tester : s.tester = [] → t.tester = []

theorem Silent.refl (s : State) : Silent s s := ⟨rfl, rfl, id⟩

theorem Silent.trans (h : Silent s t) (k : Silent t u) : Silent s u :=
  ⟨k.xu.trans h.xu, k.freeNext.trans h.freeNext, fun e => k.tester (h.tester e)⟩

theorem onCorr_silent (f : Correlator → Correlator) (s : State) : Silent s (s.onCorr f) := ⟨rfl, rfl, id⟩

theorem onTables_silent (f : Tables → Tables) (s : State) : Silent s (s.onTables f) := ⟨rfl, rfl, id⟩

/-- Under list selection 0 an offer is discarded (R174). -/
theorem offerLocated_unlisted (r : LocatedOffer) (h : s.xu.listSelection = 0) : offerLocated r s = s := by
  have hsel : offerSelected s.xu r = false := by
    unfold offerSelected
    split <;> simp [h]
  simp [offerLocated, hsel]

/-- Under list selection 0 an event is handed on without a request to the exchange unit. -/
theorem handOn_silent (e : Event) (c : CloseCause) (k : EventClass) (h : s.xu.listSelection = 0) : Silent s (handOn e c k s) := by
  have offer (r : LocatedOffer) (a : State) (ha : a.xu.listSelection = 0) : Silent a (offerLocated r a) := by
    rw [offerLocated_unlisted r ha]
    exact .refl a
  cases k with
  | unzoned path pos => exact offer _ s h
  | located path pos zone => exact (onTables_silent _ s).trans (offer _ (takeLocated zone e.gate e.amplitude s) h)
  | empty | continuous | ungated | unlocated => exact .refl s

theorem closeEvent_silent (e : Event) (c : CloseCause) (h : s.xu.listSelection = 0) : Silent s (closeEvent e c s) :=
  (onCorr_silent _ s).trans (handOn_silent (s := State.onTallies _ s) e c _ h)

theorem cutEvents_silent (h : s.xu.listSelection = 0) : Silent s (cutEvents s) := by
  have fold (es : List Event) (a : State) (ha : a.xu.listSelection = 0) :
      Silent a (es.foldl (fun s e => closeEvent e .cut s) a) := by
    induction es generalizing a with
    | nil => exact .refl a
    | cons e es ih =>
      have first := closeEvent_silent e .cut ha
      exact first.trans (ih _ (by rw [first.xu]; exact ha))
  exact (onCorr_silent _ s).trans (fold _ _ h)

/-- What noting a hit end leaves: the exchange unit, the number of events in the list, and the count of those cut. -/
structure Noted (s t : State) : Prop extends Silent s t where
  events : t.corr.events.length = s.corr.events.length
  cut : t.corr.tallies.cut = s.corr.tallies.cut

theorem Noted.refl (s : State) : Noted s s := ⟨.refl s, rfl, rfl⟩

theorem Noted.trans (h : Noted s t) (k : Noted t u) : Noted s u :=
  ⟨h.toSilent.trans k.toSilent, k.events.trans h.events, k.cut.trans h.cut⟩

theorem onChannel_noted (c : ChannelNo) (f : Channel → Channel) (s : State) : Noted s (s.onChannel c f) :=
  ⟨⟨rfl, rfl, id⟩, rfl, rfl⟩

theorem noteCorrEnd_noted (c : ChannelNo) (e : HitEnd) (s : State) : Noted s (noteCorrEnd c e s) := by
  unfold noteCorrEnd
  split
  · exact .refl s
  · exact ⟨⟨rfl, rfl, id⟩, rfl, rfl⟩
  · exact ⟨⟨rfl, rfl, id⟩, List.length_map _, rfl⟩

theorem noteHitEnd_noted (c : ChannelNo) (e : HitEnd) (s : State) : Noted s (noteHitEnd c e s) := by
  have tester (f : Test → Test) (h : s.tester = []) : (s.onTest f).tester = [] := by
    simp [State.onTest, h]
  exact ⟨⟨State.onTest_xu s _, State.onTest_freeNext s _, tester _⟩, by rw [noteHitEnd, State.onTest_corr],
    by rw [noteHitEnd, State.onTest_corr]⟩

theorem deliverEnd_noted (c : ChannelNo) (r : Receiver) (e : HitEnd) (s : State) : Noted s (deliverEnd true c r e s) := by
  cases r with
  | correlator => exact noteCorrEnd_noted c e s
  | tester => exact noteHitEnd_noted c e s

theorem cutHit_noted (c : ChannelNo) (s : State) : Noted s (cutHit true Channel.armed c s) := by
  unfold cutHit
  split
  · exact .refl s
  · exact .trans (onChannel_noted c _ s) (deliverEnd_noted c _ _ _)

theorem cutHits_noted (s : State) : Noted s (cutHits s) := by
  have fold (cs : List ChannelNo) (a : State) : Noted a (cs.foldl (fun s c => cutHit true Channel.armed c s) a) := by
    induction cs generalizing a with
    | nil => exact .refl a
    | cons c cs ih => exact (cutHit_noted c a).trans (ih _)
  exact fold _ _

/-- With no test no source is released. -/
theorem releaseIn_of_noTest (a b : Nat) (h : s.tester = []) : releaseIn a b s = s := by
  simp [releaseIn, releaseHead, h]

/-- With no test the tester has nothing to forget. -/
theorem testerClose_of_noTest (h : s.tester = []) : testerClose s = s := by
  simp [testerClose, forgetAttempt, State.onTest, h]

theorem drawRelease_of_noTest (h : s.tester = []) : drawRelease s = s := by
  simp [drawRelease, releasing, h]

/-- With no test the acoustic part of a close cuts the hits, then the events. -/
theorem closeSound_of_noTest (part : Nat) (h : s.tester = []) (hl : s.xu.listSelection = 0) :
    closeSound part s = cutEvents (cutHits s) := by
  have hits := (cutHits_noted s).toSilent
  have quiet : (cutEvents (cutHits s)).tester = [] := (cutEvents_silent (by rw [hits.xu]; exact hl)).tester (hits.tester h)
  unfold closeSound corrClose
  rw [testerClose_of_noTest h, releaseIn_of_noTest part 0 h, releaseIn_of_noTest part 1 quiet]

/-! ## The close, stage by stage (R4) -/

/-- What the blocks have done to a closing cycle when the exchange unit takes it, with the next cycle open. -/
def closedBlocks (s : State) : State :=
  (mouldClose (releaseIn (releasePart s) 2 (evidenceClose (zeroTally (closeSound (releasePart s) (drawRelease s)))))).onTimer openCycle

/-- What the exchange unit holds of the cycle that closes. -/
def closingFacts (s : State) : CloseFacts :=
  let a := closeSound (releasePart s) (drawRelease s)
  closeFacts { a with mould := { a.mould with state := s.mould.state } } a.corr.tallies (closeReport a)

theorem cycleClose_stages (s : State) :
    cycleClose s = offerPending (offerCheckpoint (exchangeClose (closingFacts s) (closedBlocks s))) := rfl

theorem closeSound_drawRelease_timer (s : State) : (closeSound (releasePart s) (drawRelease s)).timer = s.timer :=
  ((closeSound_keeps _ _).timer rfl).trans ((drawRelease_keeps (p := exchangeOnly) s).timer rfl)

theorem closingFacts_tallies (s : State) :
    (closingFacts s).tallies = (closeSound (releasePart s) (drawRelease s)).corr.tallies := rfl

theorem closingFacts_number (s : State) : (closingFacts s).number = s.timer.number :=
  congrArg CycleTimer.number (closeSound_drawRelease_timer s)

/-- The cycle timer of the next cycle stands when the exchange unit takes the close. -/
theorem closedBlocks_timer (s : State) : (closedBlocks s).timer = openCycle s.timer := by
  unfold closedBlocks
  rw [State.onTimer_timer, (mouldClose_keeps _).timer rfl, (releaseIn_keeps _ _ _).timer rfl, (evidenceClose_keeps _).timer rfl,
    (zeroTally_keeps _).timer rfl, closeSound_drawRelease_timer]

/-- The correlator has closed its events and zeroed its tallies when the exchange unit takes the close. -/
theorem closedBlocks_corr (s : State) :
    (closedBlocks s).corr = (zeroTally (closeSound (releasePart s) (drawRelease s))).corr := by
  unfold closedBlocks
  rw [State.onTimer_corr, (mouldClose_keeps _).corr rfl, (releaseIn_keeps _ _ _).corr rfl, (evidenceClose_keeps _).corr rfl]

theorem closeSound_events (part : Nat) (s : State) : (closeSound part s).corr.events = [] := by
  unfold closeSound corrClose
  rw [(releaseIn_keeps _ _ _).corr rfl, cutEvents_events]

theorem closedBlocks_noHit (s : State) : NoHit (closedBlocks s) := by
  have sound := closeSound_noHit (releasePart s) (drawRelease s)
  have zones : NoHit (evidenceClose (zeroTally (closeSound (releasePart s) (drawRelease s)))) :=
    noHit_of_front ((evidenceClose_keeps _).front rfl) (noHit_of_front ((zeroTally_keeps _).front rfl) sound)
  exact noHit_of_front ((mouldClose_keeps _).front rfl) (releaseIn_noHit _ 2 zones)

/-- The offers that follow the exchange unit's part of a close. -/
theorem offers_keeps (s : State) : Keeps leaving s (offerPending (offerCheckpoint s)) :=
  (offerCheckpoint_keeps s).trans (offerPending_keeps _)

theorem offers_requests (s : State) : Requests s (offerPending (offerCheckpoint s)) :=
  (offerCheckpoint_requests s).trans (offerPending_requests _)

/-- A close opens the next cycle on the cycle timer (R6). -/
theorem cycleClose_timer (s : State) : (cycleClose s).timer = openCycle s.timer := by
  rw [cycleClose_stages, (offers_keeps _).timer rfl, (exchangeClose_keeps (p := exchangeOnly) _ _).timer rfl, closedBlocks_timer]

theorem cycleClose_corr (s : State) : (cycleClose s).corr = (closedBlocks s).corr := by
  rw [cycleClose_stages, (offers_keeps _).corr rfl, (exchangeClose_keeps (p := exchangeOnly) _ _).corr rfl]

/-- No event is left after a close (R55). -/
theorem cycleClose_events (s : State) : (cycleClose s).corr.events = [] := by
  rw [cycleClose_corr, closedBlocks_corr]
  exact closeSound_events _ _

/-- The tallies are 0 after a close (R55, R64). -/
theorem cycleClose_tallies (s : State) : (cycleClose s).corr.tallies = zeroTallies := by
  rw [cycleClose_corr, closedBlocks_corr]
  rfl

/-- No hit is open after a close (R38). -/
theorem cycleClose_noHit (s : State) : NoHit (cycleClose s) :=
  (offers_requests _).hits (noHit_of_front ((exchangeClose_keeps (p := exchangeOnly) _ _).front rfl) (closedBlocks_noHit s))

/-! ## The record of a close with no test and no offer listed (R55, R168, R169) -/

theorem zeroTally_silent (s : State) : Silent s (zeroTally s) := onCorr_silent (fun c => { c with tallies := zeroTallies }) s

theorem evidenceClose_silent (s : State) : Silent s (evidenceClose s) := ⟨rfl, rfl, id⟩

theorem onTimer_silent (f : CycleTimer → CycleTimer) (s : State) : Silent s (s.onTimer f) := ⟨rfl, rfl, id⟩

theorem mouldClose_silent (s : State) : Silent s (mouldClose s) := by
  unfold mouldClose
  split
  · exact ⟨rfl, rfl, id⟩
  · exact .refl s

/-- The exchange unit is asked for nothing before it takes the close. -/
theorem closedBlocks_silent (ht : s.tester = []) (hl : s.xu.listSelection = 0) : Silent s (closedBlocks s) := by
  have hits := (cutHits_noted s).toSilent
  have sound : Silent s (cutEvents (cutHits s)) := hits.trans (cutEvents_silent (by rw [hits.xu]; exact hl))
  have zones : Silent s (evidenceClose (zeroTally (cutEvents (cutHits s)))) :=
    (sound.trans (zeroTally_silent _)).trans (evidenceClose_silent _)
  unfold closedBlocks
  rw [drawRelease_of_noTest ht, closeSound_of_noTest _ ht hl, releaseIn_of_noTest _ 2 (zones.tester ht)]
  exact zones.trans ((mouldClose_silent _).trans (onTimer_silent _ _))

/-- The facts of the close count every event of the list as cut. -/
theorem closingFacts_cut (ht : s.tester = []) (hl : s.xu.listSelection = 0) (hc : s.corr.tallies.cut ≤ top32) :
    (closingFacts s).tallies.cut = min top32 (s.corr.tallies.cut + s.corr.events.length) := by
  have noted := cutHits_noted s
  rw [closingFacts_tallies, drawRelease_of_noTest ht, closeSound_of_noTest _ ht hl, cutEvents_cut (by rw [noted.cut]; exact hc),
    noted.cut, noted.events]

theorem createCycleJob_queue (r : CycleRecord) (s : State) :
    (createCycleJob r s).xu.queue = s.xu.queue ++ [jobOf s 0 (cycleBody s 0 r)] := by
  simp [createCycleJob, bumpJournal, addJob, nextSeq]

/-- While ACTIVE, with no carry record and room for one, a record gets its job (R169). -/
theorem placeRecord_of_room (r : CycleRecord) (ha : active s = true) (hc : s.xu.carry = none) (hr : RoomAfter s 0) :
    placeRecord r s = createCycleJob r s := by
  obtain ⟨journal, queue⟩ := hr
  have room : recordRoom s = true := by
    simp only [BitVec.add_zero, Option.map_id_fun', id_eq] at journal
    rw [Nat.add_zero] at queue
    simp [recordRoom, journalRoom, queueRoom, queueCapacity, journal, queue]
  simp [placeRecord, ha, hc, room]

/-- What has accrued to the closing cycle goes into its record, and nothing has accrued to the next. -/
def unaccrued : State → State := State.onXu fun x => { x with accruals := noAccruals }

/-- After the record's placing a close only asks for more. -/
theorem exchangeClose_places (f : CloseFacts) (s : State) :
    Requests (placeRecord (formRecord f s.xu.accruals) (unaccrued s)) (exchangeClose f s) := by
  unfold exchangeClose unaccrued
  dsimp only
  split
  · exact (requestMirror_requests _).trans (askScan_requests _ _)
  · exact .refl _

/-- The job behind those waiting stays where it is. -/
theorem Requests.job {j : Job} {js : List Job} (h : Requests s t) (e : s.xu.queue = js ++ [j]) :
    t.xu.queue[js.length]? = some j := by
  obtain ⟨rest, r⟩ := h.queue
  rw [← r, e]
  simp

theorem placeRecord_unaccrued_queue (r : CycleRecord) (ha : active s = true) (hc : s.xu.carry = none) (hr : RoomAfter s 0) :
    (placeRecord r (unaccrued s)).xu.queue = s.xu.queue ++ [jobOf s 0 (cycleBody s 0 r)] := by
  have room : placeRecord r (unaccrued s) = createCycleJob r (unaccrued s) := placeRecord_of_room r ha hc hr
  rw [room, createCycleJob_queue]
  rfl

/-- The record's job after a close with no test and no offer listed. -/
theorem cycleClose_record (ha : active s = true) (hc : s.xu.carry = none) (hr : RoomAfter s 0) (hl : s.xu.listSelection = 0)
    (ht : s.tester = []) :
    (cycleClose s).xu.queue[s.xu.queue.length]? =
      some (jobOf s 0 (cycleBody s 0 (formRecord (closingFacts s) s.xu.accruals))) := by
  obtain ⟨xu, free, -⟩ := closedBlocks_silent ht hl
  have asked := (exchangeClose_places (closingFacts s) (closedBlocks s)).trans (offers_requests _)
  refine asked.job ?_
  have room : RoomAfter (closedBlocks s) 0 := by
    unfold RoomAfter
    rw [xu]
    exact hr
  rw [placeRecord_unaccrued_queue _ (by simpa [active, xu] using ha) (by rw [xu]; exact hc) room]
  simp [baseOf, xu, free]

/-! ## The cycle that opens (R6, R13) -/

theorem mapWindows_get {α β : Type} (f : α → β) (v : Vector α 8) (w : WindowNo) : (mapWindows f v)[w] = f v[w] := by
  fin_cases w <;> rfl

theorem openingWindow_state (d : WindowDef) :
    (openingWindow d).state =
      if d.anchor = .none then .disabled
      else if d.anchor = .cyc then (if d.offset = 0 then .open else .pending)
      else .waiting := by
  unfold openingWindow
  cases d.anchor <;> rfl

theorem openCycle_windows (t : CycleTimer) (w : WindowNo) :
    (openCycle t).windows[w] = openingWindow (openCycle t).installed.windows[w] := mapWindows_get _ _ w

/-! ## The edge (R4, R176) -/

/-- A filter timer that has run out delivers its line's edge. -/
theorem exec_lineFilterExpiry_of_due (l : Line) (hh : held s = false) (due : EdgeDue s l) :
    exec (.lineFilterExpiry l) s = .next (deliverEdge l (s.lines.at l).raw (filteredTo l s)) := by
  obtain ⟨timer, level⟩ := due
  have h : filterDue l s = true := by simp [filterDue, expired, timer, level]
  have answer : exec (.lineFilterExpiry l) s = .next (if !held s && filterDue l s then takeEdge l s else s) := rfl
  rw [answer, hh, h]
  rfl

theorem cycEdge_of_selected {rising : Bool} (h : selects s.timer.installed.cycEdge rising = true) :
    cycEdge rising s = cycleClose s :=
  if_pos h

theorem cycEdge_of_not_selected {rising : Bool} (h : selects s.timer.installed.cycEdge rising = false) :
    cycEdge rising s = s := by
  simp [cycEdge, h]

/-- The record of the closing cycle, with each event of the list counted as cut (R55). -/
theorem cycleClose_cutRecord (ha : active s = true) (hc : s.xu.carry = none) (hr : RoomAfter s 0) (hl : s.xu.listSelection = 0)
    (ht : s.tester = []) (hcut : s.corr.tallies.cut ≤ 4294967295) :
    ∃ r, (cycleClose s).xu.queue[s.xu.queue.length]? = some (jobOf s 0 (cycleBody s 0 r)) ∧ r.first = s.timer.number
      ∧ r.tallies.cut = min 65535 (s.corr.tallies.cut + s.corr.events.length) := by
  refine ⟨_, cycleClose_record ha hc hr hl ht, closingFacts_number s, ?_⟩
  have facts : (closingFacts s).tallies.cut = min 4294967295 (s.corr.tallies.cut + s.corr.events.length) :=
    closingFacts_cut ht hl hcut
  have field : (formRecord (closingFacts s) s.xu.accruals).tallies.cut = min 65535 (closingFacts s).tallies.cut := rfl
  rw [field, facts]
  omega

/-- Settles O8: the cycle close taken stage by stage. The timer is opened once and no later stage touches it; the cuts leave no hit
and no event; and with no test and no offer listed the exchange unit meets the close as it stood, so that the record gets the first
job, with every event counted as cut. -/
theorem cycEdgeOpensCycle : Obligations.CycEdgeOpensCycle := by
  intro s hh due
  rw [exec_lineFilterExpiry_of_due .cyc hh due]
  constructor
  · intro sel
    have close : deliverEdge .cyc (s.lines.at .cyc).raw (filteredTo .cyc s) = cycleClose (filteredTo .cyc s) :=
      cycEdge_of_selected (s := filteredTo .cyc s) sel
    have timer : (cycleClose (filteredTo .cyc s)).timer = openCycle s.timer := cycleClose_timer (filteredTo .cyc s)
    have kept := cycleClose_keeps (filteredTo .cyc s)
    refine ⟨cycleClose (filteredTo .cyc s), congrArg _ close, ?_⟩
    rw [timer]
    refine ⟨rfl, rfl, rfl, rfl, rfl, rfl, rfl, rfl, rfl, fun w => ?_, rfl, rfl, cycleClose_events _, cycleClose_tallies _,
      cycleClose_noHit _, cycleClose_cutRecord (s := filteredTo .cyc s), kept.lines, kept.board, kept.variant, kept.area,
      kept.pending⟩
    rw [openCycle_windows]
    exact ⟨rfl, openingWindow_state _⟩
  · intro sel
    exact congrArg _ (cycEdge_of_not_selected (s := filteredTo .cyc s) sel)

end Sys2Proof.Machine
end

section
/-! PROOF. The law of R51: no step lets the open event list grow past its capacity, or lets a channel into an event twice or from
outside the variant. -/

namespace Sys2Proof.Machine

open Sys2Proof

variable {p : Parts} {s t u : State}

/-! ## The law of the event list, and what keeps it -/

/-- The law of R51 with what a hit start needs of the front end: only a channel of the variant has a base threshold (R27). -/
structure EventListOk (s : State) : Prop where
  events : EventsOk s.corr.events
  members : MembersFitted s.variant s.corr.events
  bases : BasesFitted s

/-- Where the event list of `s` is lawful, that of `t` is. -/
def KeepsEventList (s t : State) : Prop := EventListOk s → EventListOk t

theorem KeepsEventList.refl (s : State) : KeepsEventList s s := id

theorem KeepsEventList.trans (h : KeepsEventList s t) (k : KeepsEventList t u) : KeepsEventList s u := k ∘ h

/-- The variant, the event list and the base thresholds are all that the law reads. -/
theorem KeepsEventList.of_bases (hv : t.variant = s.variant) (hc : t.corr.events = s.corr.events)
    (hb : ∀ c, (t.channel c).base = (s.channel c).base) : KeepsEventList s t := fun h =>
  { events := hc ▸ h.events
    members := by rw [hv, hc]; exact h.members
    bases := fun c e => hv ▸ h.bases c (hb c ▸ e) }

/-- An operation on other blocks than the front end and the correlator keeps the law. -/
theorem KeepsEventList.of_same (hv : t.variant = s.variant) (hf : t.front = s.front) (hc : t.corr = s.corr) : KeepsEventList s t :=
  .of_bases hv (by rw [hc]) fun c => by simp only [State.channel, hf]

/-- The parts hold no hit start, and no setting of base thresholds. -/
def Parts.noNewMember (p : Parts) : Bool := !p.start && !(p.front && p.tables)

/-- What neither starts a hit nor sets a base threshold keeps the law. -/
theorem Keeps.eventList (h : Keeps p s t) (w : p.noNewMember = true := by rfl) : KeepsEventList s t := by
  simp only [Parts.noNewMember, Bool.and_eq_true, Bool.not_eq_true', Bool.and_eq_false_iff] at w
  obtain ⟨start, front | tables⟩ := w
  all_goals refine fun k => ⟨h.events start k.events, h.variant ▸ h.members start _ k.members, ?_⟩
  · unfold BasesFitted State.channel
    rw [h.front front, h.variant]
    exact k.bases
  · exact (h.zones tables).bases k.bases

/-- Different channels, each of the variant, are no more than the variant has (R21, R51). -/
theorem EventListOk.members_length_le (h : EventListOk s) {e : Event} (he : e ∈ s.corr.events) :
    e.members.length ≤ channelCount s.variant := by
  have distinct : (e.members.map fun m => m.chan.val).Nodup := by
    have k := (h.events.2 e he).map Fin.val_injective
    rwa [List.map_map] at k
  have within : (e.members.map fun m => m.chan.val) ⊆ List.range (channelCount s.variant) := by
    intro n hn
    obtain ⟨m, hm, rfl⟩ := List.mem_map.1 hn
    exact List.mem_range.2 (h.members e he m hm)
  simpa using (distinct.subperm within).length_le

/-- A state with no event and no base threshold is lawful. -/
theorem EventListOk.of_empty (he : s.corr.events = []) (hb : ∀ c, (s.channel c).base = none) : EventListOk s where
  events := by simp [EventsOk, he]
  members := by simp [MembersFitted, he]
  bases c h := absurd (hb c) h

/-! ## A hit start (R30, R47 to R50) -/

/-- Only a channel with a base threshold, so only one of the variant, can start a hit (R27, R30). -/
theorem fitted_of_hitBase {c : ChannelNo} {a : Nat} (h : (hitBase c a s).isSome = true) (k : BasesFitted s) :
    c.val < channelCount s.variant := by
  refine k c fun e => ?_
  simp [hitBase, e] at h

theorem startHit_keepsEventList {c : ChannelNo} (b a : Nat) (hc : c.val < channelCount s.variant) :
    KeepsEventList s (startHit c b a s) := fun h =>
  have kept := startHit_keeps c b a s
  { events := startHit_events c b a s h.events
    members := kept.variant ▸ startHit_members c b a _ s hc h.members
    bases := (kept.zones rfl).bases h.bases }

/-! ## A mould's thresholds (R112, R113) -/

/-- A check of single entries that finds no failing one holds of none. -/
theorem not_bad_of_firstBad_eq_none {α : Type} {bad : α → Bool} {before xs : List α} {i : Nat}
    (h : firstBad (fun _ => bad) before xs i = none) : ∀ x ∈ xs, bad x = false := by
  induction xs generalizing before i with
  | nil => simp
  | cons y ys ih =>
    unfold firstBad at h
    split at h
    · cases h
    · rename_i hy
      exact List.forall_mem_cons.2 ⟨by simpa using hy, ih h⟩

/-- Every channel of a valid description is one of the variant (Table 35, item 5). -/
theorem chan_lt_of_valid {v : Variant} {d : Description} (h : validate v d = none) : ∀ c ∈ d.channels, c.chan < channelCount v := by
  have item : failing 5 (fun _ c => decide (channelCount v ≤ c.chan)) d.channels = none := by
    simp only [validate, Option.orElse_eq_none] at h
    obtain ⟨-, -, -, -, item, -⟩ := h
    exact item
  intro c hc
  have := not_bad_of_firstBad_eq_none (Option.map_eq_none_iff.1 item) c hc
  simpa using this

/-- A number below the variant's count of channels names that channel. -/
theorem channelOf_val {v : Variant} {n : Nat} (h : n < channelCount v) : (channelOf n).val = n := by
  have le : channelCount v ≤ 16 := by cases v <;> decide
  exact Nat.mod_eq_of_lt (Nat.lt_of_lt_of_le h le)

theorem onChannel_basesFitted {c : ChannelNo} (f : Channel → Channel) (hc : c.val < channelCount s.variant) (h : BasesFitted s) :
    BasesFitted (s.onChannel c f) := by
  intro d hd
  by_cases e : d = c
  · exact e ▸ hc
  · rw [State.channel_onChannel_ne s e] at hd
    exact h d hd

/-- The thresholds of channels of the variant leave the others without one. -/
theorem setThresholds_basesFitted (cs : List ChannelSpec) (hcs : ∀ c ∈ cs, c.chan < channelCount s.variant) (h : BasesFitted s) :
    BasesFitted (setThresholds cs s) := by
  unfold setThresholds
  induction cs generalizing s with
  | nil => exact h
  | cons c cs ih =>
    obtain ⟨hc, rest⟩ := List.forall_mem_cons.1 hcs
    exact ih rest (onChannel_basesFitted _ ((channelOf_val hc).symm ▸ hc) h)

theorem setThresholds_keepsEventList (cs : List ChannelSpec) (hcs : ∀ c ∈ cs, c.chan < channelCount s.variant) :
    KeepsEventList s (setThresholds cs s) := fun h =>
  have kept := setThresholds_keeps cs s
  { events := kept.events rfl h.events
    members := kept.variant ▸ kept.members rfl _ h.members
    bases := setThresholds_basesFitted cs hcs h.bases }

theorem adoptDescription_keepsEventList {d : Description} (h : validate s.variant d = none) :
    KeepsEventList s (adoptDescription d s) := by
  refine .trans ?_ (standTables_keeps d _).eventList
  exact .trans (onMould_keeps _ s).eventList (setThresholds_keepsEventList _ (chan_lt_of_valid h))

theorem takeDescription_keepsEventList (d : Description) (s : State) : KeepsEventList s (takeDescription d s) := by
  unfold takeDescription
  refine .trans (onMould_keeps (fun m => { m with read := .none }) s).eventList ?_
  dsimp only
  split
  · exact (endOrder_keeps _ _).eventList
  · rename_i valid
    refine .trans (adoptDescription_keepsEventList valid) ?_
    split
    · exact (enterClampWait_keeps _).eventList
    · exact (onMould_keeps _ _).eventList

theorem takeContext_keepsEventList (c : ContextRead) (s : State) : KeepsEventList s (takeContext c s) := by
  unfold takeContext
  refine .trans (onMould_keeps (fun m => { m with read := .none }) s).eventList ?_
  dsimp only
  split
  · exact .trans (onMould_keeps _ _).eventList (enterClampWait_keeps _).eventList
  · refine .trans (loadContext_keeps c _).eventList ?_
    exact .trans (onMould_keeps _ _).eventList (enterClampWait_keeps _).eventList

theorem takeRead_keepsEventList {kind : MountRead} {f : State → State} (h : ∀ s, KeepsEventList s (f s)) (s : State) :
    KeepsEventList s (takeRead kind f s) := by
  unfold takeRead
  split
  · exact h s
  · exact (onMould_keeps _ s).eventList

/-! ## Line edges and the cycle close (R4, R55) -/

/-- A close leaves no event, and moves no base threshold (R27, R55). -/
theorem cycleClose_keepsEventList (s : State) : KeepsEventList s (cycleClose s) := by
  have sound : KeepsEventList s (closeSound (releasePart s) (drawRelease s)) :=
    .trans (drawRelease_keeps (p := exchangeOnly) s).eventList (closeSound_keeps _ _).eventList
  have blocks : KeepsEventList s (closedBlocks s) :=
    sound.trans <| (zeroTally_keeps _).eventList.trans <| (evidenceClose_keeps _).eventList.trans <|
      (releaseIn_keeps _ _ _).eventList.trans <| (mouldClose_keeps _).eventList.trans (onTimer_keeps _ _).eventList
  rw [cycleClose_stages]
  exact (blocks.trans (exchangeClose_keeps (p := exchangeOnly) _ _).eventList).trans (offers_keeps _).eventList

theorem lineEdge_keepsEventList (x : PhaseLine) (rising : Bool) (s : State) : KeepsEventList s (lineEdge x rising s) := by
  unfold lineEdge
  split
  · exact (onTimer_keeps _ s).eventList
  · exact .refl s

theorem deliverEdge_keepsEventList (l : Line) (rising : Bool) (s : State) : KeepsEventList s (deliverEdge l rising s) := by
  cases l with
  | cyc =>
    simp only [deliverEdge, cycEdge]
    split
    · exact cycleClose_keepsEventList s
    · exact .refl s
  | feed => exact lineEdge_keepsEventList .feed rising s
  | vib => exact lineEdge_keepsEventList .vib rising s
  | tamp => exact lineEdge_keepsEventList .tamp rising s
  | strip => exact lineEdge_keepsEventList .strip rising s
  | mpres =>
    cases rising with
    | true => exact .refl s
    | false => exact (mouldPulled_keeps s).eventList
  | clamp =>
    cases rising with
    | true => exact (clampLocks_keeps s).eventList
    | false => exact (clampUnlocks_keeps s).eventList

/-! ## The exchange unit -/

theorem onXu_keepsEventList (f : Exchange → Exchange) (s : State) : KeepsEventList s (s.onXu f) := .of_same rfl rfl rfl

theorem land_keepsEventList (w : BusWrite) (s : State) : KeepsEventList s (s.land w) := .of_same rfl rfl rfl

theorem setEnable_keepsEventList (s : State) : KeepsEventList s (setEnable s) := by
  unfold setEnable
  split
  · exact .refl s
  · exact onXu_keepsEventList _ s

theorem clearEnable_keepsEventList (s : State) : KeepsEventList s (clearEnable s) := by
  unfold clearEnable
  split
  · exact (disableArea_keeps s).eventList
  · exact .refl s

theorem lookNow_keepsEventList (s : State) : KeepsEventList s (lookNow s) := by
  unfold lookNow
  split
  · exact (askScan_keeps (p := exchangeOnly) _ s).eventList
  · exact .refl s

theorem writeRegister_keepsEventList (r : Register) (v : Word) (s : State) : KeepsEventList s (writeRegister r v s) := by
  cases r with
  | xbaseL | xbaseH =>
    simp only [writeRegister]
    split
    · exact .refl s
    · exact onXu_keepsEventList _ s
  | xctl =>
    simp only [writeRegister]
    split
    · exact setEnable_keepsEventList s
    · exact clearEnable_keepsEventList s
  | xlook => exact lookNow_keepsEventList s
  | xstat | xident => exact .refl s

theorem takeHeader_keepsEventList (bytes : List Byte) (s : State) : KeepsEventList s (takeHeader bytes s) := by
  unfold takeHeader
  split
  · exact (checkHeader_keeps bytes s).eventList
  · exact onXu_keepsEventList _ s

theorem takeCapability_keepsEventList (s : State) : KeepsEventList s (takeCapability s) := by
  unfold takeCapability
  split
  · exact .trans (land_keepsEventList _ s) (becomeActive_keeps _ s).eventList
  · exact .trans (land_keepsEventList _ s) (onXu_keepsEventList _ _)
  · exact .refl s

theorem endScan_keepsEventList (s : State) : KeepsEventList s (endScan s) := (endScan_keeps (p := exchangeOnly) s).eventList

theorem scanTo_keepsEventList (x : ScanPhase) (s : State) : KeepsEventList s (scanTo x s) :=
  (scanTo_keeps (p := exchangeOnly) x s).eventList

theorem putCell_keepsEventList (k : CellNo) (e : CellEntry) (s : State) : KeepsEventList s (s.putCell k e) :=
  (putCell_keeps (p := exchangeOnly) k e s).eventList

theorem giveResult_keepsEventList (o : OrderRef) (r : OrderResult) (s : State) : KeepsEventList s (giveResult o r s) :=
  (giveResult_keeps (p := exchangeOnly) o r s).eventList

/-- A scan's next operation keeps the law if it does on a scan that goes on. -/
theorem scanOn_keepsEventList {f : State → State} (h : ∀ s, KeepsEventList s (f s)) (s : State) : KeepsEventList s (scanOn f s) := by
  unfold scanOn
  split
  · exact endScan_keepsEventList s
  · exact h s

theorem headerScanned_keepsEventList (bytes : List Byte) (s : State) : KeepsEventList s (headerScanned bytes s) :=
  (onXu_keepsEventList _ s).trans <| (evaluateAttn_keeps _).eventList.trans (scanTo_keepsEventList _ _)

/-- A programme's delivery moves no base threshold (R27, R157). -/
theorem deliverProgramme_keepsEventList (x : Programme) (s : State) : KeepsEventList s (deliverProgramme x s) :=
  .of_bases rfl rfl fun _ => rfl

theorem takePage_keepsEventList (page : List Byte) (s : State) : KeepsEventList s (takePage page s) := by
  unfold takePage
  refine (deliverProgramme_keepsEventList (takeProgramme (effectiveProgramme s) page) s).trans ?_
  refine (accrue_keeps (p := exchangeOnly) (takeFlags page) _).eventList.trans ?_
  exact (onXu_keepsEventList _ _).trans <| (useFree_keeps (p := exchangeOnly) _).eventList.trans (scanTo_keepsEventList _ _)

theorem echoDone_keepsEventList (s : State) : KeepsEventList s (echoDone s) := by
  unfold echoDone
  split
  · exact (land_keepsEventList _ s).trans (scanOn_keepsEventList (scanTo_keepsEventList _) _)
  · exact .refl s

theorem boardRead_keepsEventList (bytes : List Byte) (s : State) : KeepsEventList s (boardRead bytes s) :=
  (onXu_keepsEventList _ s).trans (treatBoard_keeps _ _).eventList

theorem cellTaken_keepsEventList (k : CellNo) (s : State) : KeepsEventList s (cellTaken k s) :=
  (onXu_keepsEventList _ s).trans <| (putCell_keepsEventList k _ _).trans (scanTo_keepsEventList _ _)

theorem cellLeft_keepsEventList (k : CellNo) (found : Word) (s : State) : KeepsEventList s (cellLeft k found s) := by
  unfold cellLeft
  refine .trans ?_ (treatBoard_keeps _ _).eventList
  split
  · exact putCell_keepsEventList k _ s
  · exact .refl s

theorem takeDone_keepsEventList (found : Word) (s : State) : KeepsEventList s (takeDone found s) := by
  unfold takeDone
  split
  · split
    · exact (land_keepsEventList _ s).trans (scanOn_keepsEventList (cellTaken_keepsEventList _) _)
    · exact scanOn_keepsEventList (cellLeft_keepsEventList _ found) s
  · exact .refl s

theorem writeAccepted_keepsEventList (s : State) : KeepsEventList s (writeAccepted s) := by
  unfold writeAccepted
  split
  · exact .refl s
  · rename_i w _
    refine .trans (land_keepsEventList w s) ?_
    split
    · exact (jobDone_keeps _ _).eventList
    · exact onXu_keepsEventList _ _

theorem resultSettled_keepsEventList (found : Word) (s : State) : KeepsEventList s (resultSettled found s) := by
  unfold resultSettled
  split
  · exact .refl s
  · split
    · refine .trans ?_ (jobDone_keeps _ _).eventList
      refine .trans ?_ (settleEntry_keeps (p := exchangeOnly) _ _ _ _).eventList
      split
      · exact land_keepsEventList _ s
      · exact .refl s
    · exact .refl s

/-! ## Orders (R158, R159) -/

/-- An order's run keeps the law if its owner does. -/
theorem runOrder_keepsEventList (head : OrderHead) {owner : OrderRef → State → State} (h : ∀ o s, KeepsEventList s (owner o s))
    (s : State) : KeepsEventList s (runOrder head owner s) := by
  unfold runOrder
  split
  · split
    · exact endScan_keepsEventList s
    · exact (putCell_keepsEventList _ _ s).trans <| (h _ _).trans (treatBoard_keeps _ _).eventList
  · exact .refl s

theorem takeTest_keepsEventList (a : TestArgs) (o : OrderRef) (s : State) : KeepsEventList s (takeTest a o s) := by
  unfold takeTest
  split
  · exact giveResult_keepsEventList o _ s
  · split
    · exact giveResult_keepsEventList o _ s
    · have joined (ts : List Test) : KeepsEventList s { s with tester := ts } := .of_same rfl rfl rfl
      unfold joinQueue
      dsimp only
      split
      · exact (joined _).trans (judgeQueue_keeps _).eventList
      · exact joined _

theorem takeClear_keepsEventList (zone : Nat) (o : OrderRef) (s : State) : KeepsEventList s (takeClear zone o s) := by
  unfold takeClear
  split
  · exact giveResult_keepsEventList o _ s
  · exact (clearZones_keeps zone s).eventList.trans <|
      (giveResult_keepsEventList o _ _).trans (requestMirror_keeps (p := exchangeOnly) _).eventList

theorem takeRelease_keepsEventList (o : OrderRef) (s : State) : KeepsEventList s (takeRelease o s) :=
  (onEvid_keeps _ s).eventList.trans (giveResult_keepsEventList o _ _)

/-! ## Timers of the channels, the events, the tests and the press -/

theorem takeCrossing_keepsEventList (c : ChannelNo) (amplitude : Nat) (s : State) : KeepsEventList s (takeCrossing c amplitude s) :=
  (onChannel_keeps c _ s (by exact fun _ h => h)).eventList

theorem endOpenHit_keepsEventList (c : ChannelNo) (long : Bool) (s : State) : KeepsEventList s (endOpenHit c long s) := by
  unfold endOpenHit
  split
  · exact .refl s
  · exact (endHit_keeps c _ long s).eventList

theorem takeDeadline_keepsEventList (serial : Nat) (s : State) : KeepsEventList s (takeDeadline serial s) := by
  unfold takeDeadline
  split
  · exact .refl s
  · exact (meetDeadline_keeps _ s).eventList

theorem takeEndTick_keepsEventList (s : State) : KeepsEventList s (takeEndTick s) := by
  unfold takeEndTick
  split
  · exact .refl s
  · exact (endAttemptTick_keeps _ s).eventList

theorem takeRest_keepsEventList (s : State) : KeepsEventList s (takeRest s) :=
  ((onTest_keeps _ s).trans (judgeQueue_keeps _)).eventList

theorem takeStall_keepsEventList (s : State) : KeepsEventList s (takeStall s) :=
  (onTimer_keeps _ s).eventList.trans <|
    (handCondition_keeps (p := exchangeOnly) _ _ _ _).eventList.trans (judgeQueue_keeps _).eventList

/-! ## Resets and the tick (R179) -/

theorem resetBlocks_eventListOk (s : State) : EventListOk (resetBlocks s) :=
  .of_empty rfl fun c => congrArg Channel.base (Vector.getElem_replicate c.isLt)

theorem onBoard_keepsEventList (f : Board → Board) (s : State) : KeepsEventList s (s.onBoard f) := .of_same rfl rfl rfl

theorem startUp_keepsEventList (s : State) : KeepsEventList s (startUp s) := .of_same rfl rfl rfl

theorem mapChannels_get (f : Channel → Channel) (v : Vector Channel 16) (c : ChannelNo) : (mapChannels f v)[c] = f v[c] := by
  fin_cases c <;> rfl

theorem ageBlocks_channel (s : State) (c : ChannelNo) : (ageBlocks s).channel c = (s.channel c).aged := mapChannels_get _ _ c

/-- A tick moves no base threshold. -/
theorem ageBlocks_keepsEventList (s : State) : KeepsEventList s (ageBlocks s) :=
  .of_bases rfl rfl fun c => by rw [ageBlocks_channel]; rfl

theorem tick_keepsEventList (s : State) : KeepsEventList s (tick s) := by
  have aged : KeepsEventList s (ageState s) := by
    refine .trans (onBoard_keepsEventList Board.aged s) ?_
    unfold ageState
    dsimp only
    split
    · exact .refl _
    · exact ageBlocks_keepsEventList _
  exact aged.trans (.of_same rfl rfl rfl)

/-! ## Every command -/

/-- Every next state an answer gives is lawful where `s` is. -/
def AnswerKeepsEventList (s : State) (a : Answer) : Prop := ∀ t, a = .next t → KeepsEventList s t

theorem AnswerKeepsEventList.next (h : KeepsEventList s t) : AnswerKeepsEventList s (.next t) := fun _ e => by
  injection e with e
  exact e ▸ h

/-- A command keeps the law if its effect does where it is due. -/
theorem AnswerKeepsEventList.respond {due : State → Bool} {f : State → State} (h : due s = true → KeepsEventList s (f s)) :
    AnswerKeepsEventList s (respond due f s) := by
  refine .next ?_
  split
  · rename_i hd
    exact h (Bool.and_eq_true_iff.1 hd).2
  · exact .refl s

theorem execSupplyReturnDelayExpiry_keepsEventList (s : State) : AnswerKeepsEventList s (execSupplyReturnDelayExpiry s) := by
  refine .next ?_
  dsimp only
  split
  · refine .trans (onBoard_keepsEventList (fun b => { b with supplyDelay := none, powerOn := false }) s) ?_
    split
    · exact .refl _
    · exact startUp_keepsEventList _
  · exact .refl s

theorem execResetEnd_keepsEventList (pin : ResetPin) (s : State) : AnswerKeepsEventList s (execResetEnd pin s) := by
  refine .next ?_
  dsimp only
  refine .trans (onBoard_keepsEventList (Board.raise pin) s) ?_
  split
  · exact .refl _
  · refine .trans (onBoard_keepsEventList (fun b => { b with qualify := none, rstTaken := false }) _) ?_
    split
    · exact startUp_keepsEventList _
    · exact .refl _

theorem execSupplyOutOfRange_keepsEventList (s : State) : AnswerKeepsEventList s (execSupplyOutOfRange s) :=
  .next fun _ => KeepsEventList.of_same (s := resetBlocks s) rfl rfl rfl (resetBlocks_eventListOk s)

theorem execSuppliesReturnWithinRange_keepsEventList (s : State) : AnswerKeepsEventList s (execSuppliesReturnWithinRange s) := by
  refine .next ?_
  split
  · exact .refl s
  · exact onBoard_keepsEventList _ s

theorem execResetTaken_keepsEventList (s : State) : AnswerKeepsEventList s (execResetTaken s) := by
  refine .next ?_
  split
  · exact fun _ => onBoard_keepsEventList _ _ (resetBlocks_eventListOk s)
  · exact .refl s

/-- Every command keeps the law of R51. -/
theorem exec_keepsEventList (i : Instr) (s : State) : AnswerKeepsEventList s (exec i s) := by
  unfold exec
  cases i with
  | supplyOutOfRange => exact execSupplyOutOfRange_keepsEventList s
  | suppliesReturnWithinRange => exact execSuppliesReturnWithinRange_keepsEventList s
  | supplyReturnDelayExpiry => exact execSupplyReturnDelayExpiry_keepsEventList s
  | rstLow pin => exact .next (onBoard_keepsEventList _ s)
  | resetTaken => exact execResetTaken_keepsEventList s
  | resetEnd pin => exact execResetEnd_keepsEventList pin s
  | functionLevelReset => exact .next (.refl s)
  | lineRawChange line mv => exact .next (.of_same rfl rfl rfl)
  | lineFilterExpiry line =>
    have put (v : LineInput) : KeepsEventList s (s.putLine line v) := .of_same rfl rfl rfl
    exact .respond fun _ => (put _).trans (deliverEdge_keepsEventList line _ _)
  | windowOpen w => exact .respond fun _ => (onTimer_keeps _ s).eventList
  | windowClose w => exact .respond fun _ => (onTimer_keeps _ s).eventList
  | clockWrap => exact .respond fun _ => (onTimer_keeps _ s).eventList
  | stall => exact .respond fun _ => takeStall_keepsEventList s
  | hitStart c a => exact .respond fun due h => startHit_keepsEventList _ a (fitted_of_hitBase (s := s) due h.bases) h
  | hitCrossing c a => exact .respond fun _ => takeCrossing_keepsEventList c a s
  | hdtExpiry c => exact .respond fun _ => endOpenHit_keepsEventList c false s
  | maxDurationExpiry c => exact .respond fun _ => endOpenHit_keepsEventList c true s
  | lockoutExpiry c => exact .respond fun _ => (onChannel_keeps c _ s (by exact fun _ h => h)).eventList
  | settleExpiry c ua => exact .respond fun _ => (settleChannel_keeps c ua s).eventList
  | biasOverload c => exact .respond fun _ => (overload_keeps c s).eventList
  | routeEnd c => exact .respond fun _ => (clearRoute_keeps c s).eventList
  | eventDeadline serial => exact .respond fun _ => takeDeadline_keepsEventList serial s
  | mountTimerExpiry => exact .respond fun _ => (mountTimeout_keeps s).eventList
  | attemptEndTick => exact .respond fun _ => takeEndTick_keepsEventList s
  | restExpiry => exact .respond fun _ => takeRest_keepsEventList s
  | lampBlinkToggle => exact .respond fun _ => (onEvid_keeps _ s).eventList
  | registerWrite r v => exact .respond fun _ => writeRegister_keepsEventList r v s
  | enable => exact .respond fun _ => setEnable_keepsEventList s
  | enableHeaderReadStart => exact .respond fun _ => onXu_keepsEventList _ s
  | enableHeaderReadDone bytes => exact .respond fun _ => takeHeader_keepsEventList bytes s
  | capabilityWriteDone => exact .respond fun _ => takeCapability_keepsEventList s
  | disable => exact .respond fun _ => clearEnable_keepsEventList s
  | look => exact .respond fun _ => lookNow_keepsEventList s
  | scanHeaderReadDone bytes => exact .respond fun _ => scanOn_keepsEventList (headerScanned_keepsEventList bytes) s
  | programmeReadDone bytes => exact .respond fun _ => scanOn_keepsEventList (takePage_keepsEventList bytes) s
  | echoWriteDone => exact .respond fun _ => echoDone_keepsEventList s
  | boardReadDone bytes => exact .respond fun _ => scanOn_keepsEventList (boardRead_keepsEventList bytes) s
  | cellTakeCasDone found => exact .respond fun _ => takeDone_keepsEventList found s
  | mount notify tag offset fresh =>
    exact .respond fun _ => runOrder_keepsEventList _ (fun o s => (takeMount_keeps o offset fresh s).eventList) s
  | dismount notify tag =>
    exact .respond fun _ => runOrder_keepsEventList _ (fun o s => (takeDismount_keeps o s).eventList) s
  | testSensor notify tag source amplitude level attempts delay apply =>
    exact .respond fun _ => runOrder_keepsEventList _ (takeTest_keepsEventList _) s
  | clearZone notify tag zone => exact .respond fun _ => runOrder_keepsEventList _ (takeClear_keepsEventList zone) s
  | releaseStop notify tag => exact .respond fun _ => runOrder_keepsEventList _ takeRelease_keepsEventList s
  | badKind notify tag kind =>
    exact .respond fun _ => runOrder_keepsEventList _ (fun o => giveResult_keepsEventList o .badKind) s
  | mountFixedReadDone bytes =>
    exact .respond fun _ => takeRead_keepsEventList (fun s => (takeFixed_keeps _ s).eventList) s
  | mountDescriptionReadDone bytes =>
    refine .respond fun _ => takeRead_keepsEventList (fun s => ?_) s
    split
    · exact .refl s
    · exact takeDescription_keepsEventList _ s
  | mountContextReadDone bytes =>
    refine .respond fun _ => takeRead_keepsEventList (fun s => ?_) s
    split
    · exact .refl s
    · exact takeContext_keepsEventList _ s
  | jobWriteAccepted => exact .respond fun _ => writeAccepted_keepsEventList s
  | resultStateCasDone found => exact .respond fun _ => resultSettled_keepsEventList found s
  | busError unit => exact .respond fun _ => (busErrorOf_keeps unit s).eventList

/-- Every step keeps the law of R51: the command at the front of the queue, or a tick (log entry 1). -/
theorem step_keepsEventList (h : step s = .next t) : KeepsEventList s t := by
  unfold step at h
  split at h
  · exact AnswerKeepsEventList.next (tick_keepsEventList s) t h
  · have popped (q : List Instr) : KeepsEventList s { s with pending := q } := .of_same rfl rfl rfl
    exact (popped _).trans (exec_keepsEventList _ _ t h)

/-- Settles O56: the law of R51, with the base thresholds that decide which channels can start a hit, is kept by every step; the bound
on an event's members follows, since they are different channels of the variant. -/
theorem eventListLaw : Obligations.EventListLaw := by
  intro s t events fitted h
  obtain ⟨members, bases⟩ := fitted
  have ok : EventListOk t := step_keepsEventList h ⟨events, members, bases⟩
  exact ⟨ok.events, ⟨ok.members, ok.bases⟩, fun _ he => ok.members_length_le he⟩

end Sys2Proof.Machine
end

section
/-! PROOF. Source location (R70 to R78): the guard clamp, and where the positions of LOCATED and UNZONED events lie. -/

namespace Sys2Proof.Machine

open Sys2Proof

variable {s : State}

/-! ## The guard clamp (R75) -/

section GuardClamp

variable {L g n : Nat} {pos : Int}

theorem guardClamp_of_on_path (h0 : 0 ≤ pos) (hL : pos ≤ L) : guardClamp L g pos = some pos.toNat := by
  rw [guardClamp, if_neg (by omega), if_neg (by omega)]

theorem guardClamp_of_neg (h : pos < 0) : guardClamp L g pos = if -pos ≤ g then some 0 else none := by
  rw [guardClamp, if_pos h]

theorem guardClamp_of_beyond (h : L < pos) : guardClamp L g pos = if pos - L ≤ g then some L else none := by
  rw [guardClamp, if_neg (by omega), if_pos h]

/-- A position the clamp lets through is on the path, and at most the guard from where it was. -/
theorem guardClamp_bounds (h : guardClamp L g pos = some n) : n ≤ L ∧ ((n : Int) - pos).natAbs ≤ g := by
  rcases lt_or_ge pos 0 with below | from0
  · rw [guardClamp_of_neg below, Option.ite_none_right_eq_some, Option.some.injEq] at h
    omega
  rcases lt_or_ge (L : Int) pos with beyond | toL
  · rw [guardClamp_of_beyond beyond, Option.ite_none_right_eq_some, Option.some.injEq] at h
    omega
  · rw [guardClamp_of_on_path from0 toL, Option.some.injEq] at h
    omega

end GuardClamp

/-- Settles O27: the equations of the clamp below end A, on the path and beyond end B give the five cases, and the bounds follow. -/
theorem guardClampRule : Obligations.GuardClampRule := by
  intro L g pos
  refine ⟨guardClamp_of_on_path, fun below near => ?_, fun below far => ?_, fun beyond near => ?_, fun beyond far => ?_,
    fun n => guardClamp_bounds⟩
  · rw [guardClamp_of_neg below, if_pos near]
  · rw [guardClamp_of_neg below, if_neg (not_le.2 far)]
  · rw [guardClamp_of_beyond beyond, if_pos near]
  · rw [guardClamp_of_beyond beyond, if_neg (not_le.2 far)]

/-! ## Where a class places its event (R76 to R78) -/

/-- The position is on the path, from end A to end B. -/
def OnPath (s : State) (path pos : Nat) : Prop := ∃ p, (pathsOf s)[path]? = some p ∧ 0 ≤ pos ∧ pos ≤ p.length

/-- The zone lies on the path, and the position in the zone. -/
def InZone (s : State) (path pos z : Nat) : Prop := ∃ y, (zonesOf s)[z]? = some y ∧ y.path = path ∧ y.start ≤ pos ∧ pos ≤ y.stop

/-- A class with a position has it on its path, and in its zone where it has one. -/
def WellPlaced (s : State) : EventClass → Prop
  | .unzoned path pos => OnPath s path pos
  | .located path pos z => OnPath s path pos ∧ InZone s path pos z
  | _ => True

/-- The joining path stands in the path table under its number. -/
theorem joiningPath_getElem? {paths : List PathEntry} {a b : ChannelNo} {i : Nat} {p : PathEntry}
    (h : joiningPath paths a b = some (i, p)) : paths[i]? = some p := by
  unfold joiningPath at h
  split at h
  · cases h
  · obtain ⟨q, hq, e⟩ := Option.map_eq_some_iff.1 h
    cases e
    exact hq

/-- The locator answers no position beyond the path's end. -/
theorem locatePosition_le {p : PathEntry} {tA tB : Word} {pos : Nat} (h : locatePosition p tA tB = some pos) : pos ≤ p.length := by
  obtain ⟨-, clamped⟩ := Option.ite_none_left_eq_some.1 h
  exact (guardClamp_bounds clamped).1

/-- The zone found for a position holds it. -/
theorem inZone_of_zoneAt {path pos z : Nat} (h : zoneAt (zonesOf s) path pos = some z) : InZone s path pos z := by
  obtain ⟨hz, found, -⟩ := List.findIdx?_eq_some_iff_getElem.1 h
  obtain ⟨⟨onPath, start⟩, stop⟩ : ((zonesOf s)[z].path = path ∧ (zonesOf s)[z].start ≤ pos) ∧ pos ≤ (zonesOf s)[z].stop := by
    simpa using found
  exact ⟨_, List.getElem?_eq_getElem hz, onPath, start, stop⟩

theorem locate_wellPlaced {i : Nat} {p : PathEntry} (hp : (pathsOf s)[i]? = some p) (tA tB : Word) :
    WellPlaced s (locate s i p tA tB) := by
  unfold locate
  split
  · trivial
  next pos found =>
    have onPath : OnPath s i pos := ⟨p, hp, pos.zero_le, locatePosition_le found⟩
    split
    · exact onPath
    next z zone => exact ⟨onPath, inZone_of_zoneAt zone⟩

theorem pairClass_wellPlaced (a b : Member) : WellPlaced s (pairClass s a b) := by
  unfold pairClass
  split
  · trivial
  next i p joined =>
    have hp : (pathsOf s)[i]? = some p := joiningPath_getElem? joined
    split
    · split <;> exact locate_wellPlaced hp _ _
    · trivial

/-- Only a location pair gives a position, and it is well placed. -/
theorem classOf_wellPlaced (s : State) (e : Event) : WellPlaced s (classOf s e) := by
  unfold classOf
  split
  case h_1 => trivial
  case h_2 m ms _ =>
    split_ifs
    case pos | pos => trivial
    case neg =>
      split
      · trivial
      · exact pairClass_wellPlaced m _

/-- Settles O25: R78, and the bounds of R76 for a zone, since the class of every event is well placed. -/
theorem positionLiesOnPath : Obligations.PositionLiesOnPath := by
  intro e path pos s
  have placed := classOf_wellPlaced s e
  constructor
  · intro unzoned
    rwa [unzoned] at placed
  · intro z located
    rwa [located] at placed

end Sys2Proof.Machine
end

section
/-! PROOF. The law of R96: no step lets a zone's score rise above 65535, or its run above 255. -/

namespace Sys2Proof.Machine

open Sys2Proof

variable {p : Parts} {s t : State}

/-! ## A zone (R84, R88 to R90, R100) -/

theorem u8_le (bs : List Byte) (i : Nat) : u8 bs i ≤ 255 := Nat.le_of_lt_succ (bs.getD i 0).isLt

theorem u16_le (bs : List Byte) (i : Nat) : u16 bs i ≤ 65535 := by
  have low := u8_le bs i
  have high := u8_le bs (i + 1)
  unfold u16
  omega

/-- Decay raises no score (R90). -/
theorem decayed_le (k score : Nat) : decayed k score ≤ score := by
  unfold decayed
  split
  · exact Nat.le_refl _
  · exact Nat.sub_le _ _

/-- A run stops at 255 (R89). -/
theorem runAfter_le (z : ZoneEntry) : runAfter z ≤ 255 := by
  unfold runAfter
  split
  · exact Nat.min_le_left _ _
  · exact Nat.zero_le _

theorem buildZone_ok (z : ZoneSpec) : ZoneOk (buildZone z) := ⟨Nat.zero_le _, Nat.zero_le _⟩

theorem ZoneEntry.cleared_ok (z : ZoneEntry) : ZoneOk z.cleared := ⟨Nat.zero_le _, Nat.zero_le _⟩

theorem ZoneEntry.updated_ok {z : ZoneEntry} (e : EvidencePart) (watch : Nat) (h : ZoneOk z) : ZoneOk (z.updated e watch) :=
  ⟨(decayed_le e.decay z.score).trans h.1, runAfter_le z⟩

/-- A close keeps the law in a zone, whether or not it is a mould cycle, and whether or not the zone is blind (R88, R94). -/
theorem closeZone_ok {z : ZoneEntry} (s : State) (h : ZoneOk z) : ZoneOk (closeZone s z) := by
  unfold closeZone
  split
  · exact h
  · split
    · exact h
    · exact ZoneEntry.updated_ok _ _ h

/-- A context's score is a 16-bit field and its run a byte (Table 57). -/
theorem parseContext_inRange (paths zones : Nat) (bs : List Byte) :
    ∀ c ∈ (parseContext paths zones bs).zones, c.score ≤ 65535 ∧ c.run ≤ 255 := by
  intro c hc
  obtain ⟨i, -, rfl⟩ := List.mem_map.1 hc
  exact ⟨u16_le _ _, u8_le _ _⟩

/-! ## What keeps the law of the zone table

The law reads the working tables alone, so an operation that plainly leaves them keeps it by definition: `h : ScoresOk s` is then
the law of the new state too. -/

theorem scoresOk_of_noTables (e : s.evid.tables = none) : ScoresOk s := by simp [ScoresOk, zonesOf, e]

/-- What does not build, load, clear or close the zone table keeps the law. -/
theorem Keeps.scoresOk (k : Keeps p s t) (w : p.tables = false) (h : ScoresOk s) : ScoresOk t := (k.zones w).scores h

/-- A change of the tables that keeps the law in their zones. -/
theorem ScoresOk.onTables {f : Tables → Tables} (h : ScoresOk s)
    (k : ∀ x, (∀ z ∈ x.zones, ZoneOk z) → ∀ z ∈ (f x).zones, ZoneOk z) : ScoresOk (s.onTables f) := by
  unfold ScoresOk zonesOf at h ⊢
  simp only [State.onTables_evid]
  cases tables : s.evid.tables with
  | none => simp
  | some x =>
    rw [tables] at h
    exact k x h

/-! ## The table built, loaded, cleared and closed (R83, R84, R88, R100) -/

/-- A table just built has every score and run at 0 (R83). -/
theorem standTables_scoresOk (d : Description) (s : State) : ScoresOk (standTables d s) :=
  List.forall_mem_map.2 fun z _ => buildZone_ok z

theorem loadContext_scoresOk {c : ContextRead} (hc : ∀ z ∈ c.zones, z.score ≤ 65535 ∧ z.run ≤ 255) (h : ScoresOk s) :
    ScoresOk (loadContext c s) := by
  refine ScoresOk.onTables h fun x _ z hz => ?_
  obtain ⟨i, hi, rfl⟩ := List.mem_iff_getElem.1 hz
  rw [List.getElem_zipWith]
  exact hc _ (List.getElem_mem _)

theorem clearZones_scoresOk (zone : Nat) (h : ScoresOk s) : ScoresOk (clearZones zone s) := by
  refine ScoresOk.onTables h fun x hx => ?_
  dsimp only
  split
  · exact List.forall_mem_map.2 fun z _ => z.cleared_ok
  · intro z hz
    obtain ⟨i, hi, rfl⟩ := List.mem_iff_getElem.1 hz
    rw [List.getElem_modify]
    split
    · exact ZoneEntry.cleared_ok _
    · exact hx _ (List.getElem_mem _)

theorem evidenceClose_scoresOk (h : ScoresOk s) : ScoresOk (evidenceClose s) :=
  ScoresOk.onTables h fun _ hx => List.forall_mem_map.2 fun z hz => closeZone_ok s (hx z hz)

/-! ## The mount's reads (R112 to R114) -/

theorem adoptDescription_scoresOk (d : Description) (s : State) : ScoresOk (adoptDescription d s) := standTables_scoresOk d _

theorem takeDescription_scoresOk (d : Description) (h : ScoresOk s) : ScoresOk (takeDescription d s) := by
  unfold takeDescription
  dsimp only
  split
  · exact (endOrder_keeps _ _).scoresOk rfl h
  · split
    · exact (enterClampWait_keeps _).scoresOk rfl (adoptDescription_scoresOk d _)
    · exact (onMould_keeps _ _).scoresOk rfl (adoptDescription_scoresOk d _)

theorem takeContext_scoresOk {c : ContextRead} (hc : ∀ z ∈ c.zones, z.score ≤ 65535 ∧ z.run ≤ 255) (h : ScoresOk s) :
    ScoresOk (takeContext c s) := by
  unfold takeContext
  dsimp only
  split
  · exact (enterClampWait_keeps _).scoresOk rfl h
  · exact (enterClampWait_keeps _).scoresOk rfl (loadContext_scoresOk (s := s.onMould _) hc h)

theorem takeRead_scoresOk {kind : MountRead} {f : State → State} (h : ScoresOk s) (k : ScoresOk (f s)) :
    ScoresOk (takeRead kind f s) := by
  unfold takeRead
  split
  · exact k
  · exact h

/-! ## Line edges and the cycle close (R4, R88) -/

theorem cycleClose_scoresOk (h : ScoresOk s) : ScoresOk (cycleClose s) := by
  have sound : ScoresOk (closeSound (releasePart s) (drawRelease s)) :=
    (closeSound_keeps _ _).scoresOk rfl ((drawRelease_keeps (p := exchangeOnly) s).scoresOk rfl h)
  have closed : ScoresOk (evidenceClose (zeroTally (closeSound (releasePart s) (drawRelease s)))) :=
    evidenceClose_scoresOk ((zeroTally_keeps _).scoresOk rfl sound)
  have blocks : ScoresOk (closedBlocks s) :=
    (onTimer_keeps _ _).scoresOk rfl ((mouldClose_keeps _).scoresOk rfl ((releaseIn_keeps _ _ _).scoresOk rfl closed))
  rw [cycleClose_stages]
  exact (offers_keeps _).scoresOk rfl ((exchangeClose_keeps (p := exchangeOnly) _ _).scoresOk rfl blocks)

theorem lineEdge_scoresOk (x : PhaseLine) (rising : Bool) (h : ScoresOk s) : ScoresOk (lineEdge x rising s) := by
  unfold lineEdge
  split <;> exact h

/-- Of the line edges only a selected edge of CYC closes the zone table. -/
theorem deliverEdge_scoresOk (l : Line) (rising : Bool) (h : ScoresOk s) : ScoresOk (deliverEdge l rising s) := by
  cases l with
  | cyc =>
    simp only [deliverEdge, cycEdge]
    split
    · exact cycleClose_scoresOk h
    · exact h
  | feed | vib | tamp | strip => exact lineEdge_scoresOk _ rising h
  | mpres =>
    cases rising with
    | true => exact h
    | false => exact (mouldPulled_keeps s).scoresOk rfl h
  | clamp =>
    cases rising with
    | true => exact (clampLocks_keeps s).scoresOk rfl h
    | false => exact (clampUnlocks_keeps s).scoresOk rfl h

/-! ## What the commands on channels, events, tests and registers can change -/

theorem endOpenHit_keeps (c : ChannelNo) (long : Bool) (s : State) : Keeps sounding s (endOpenHit c long s) := by
  unfold endOpenHit
  split
  · exact Keeps.refl _ s
  · exact endHit_keeps c _ long s

theorem takeDeadline_keeps (serial : Nat) (s : State) : Keeps acoustic s (takeDeadline serial s) := by
  unfold takeDeadline
  split
  · exact Keeps.refl _ s
  · exact meetDeadline_keeps _ s

theorem takeEndTick_keeps (s : State) : Keeps sounding s (takeEndTick s) := by
  unfold takeEndTick
  split
  · exact Keeps.refl _ s
  · exact endAttemptTick_keeps _ s

theorem takeRest_keeps (s : State) : Keeps sounding s (takeRest s) := (onTest_keeps _ s).trans (judgeQueue_keeps _)

/-- What a stall can change: what the tester and the channels may, and the press state. -/
def stalling : Parts := { sounding with timer := true }

theorem takeStall_keeps (s : State) : Keeps stalling s (takeStall s) :=
  ((onTimer_keeps _ s).mono rfl).trans ((handCondition_keeps _ _ _ _).trans ((judgeQueue_keeps _).mono rfl))

theorem setEnable_keeps (s : State) : Keeps unitOnly s (setEnable s) := by
  unfold setEnable
  split
  · exact Keeps.refl _ s
  · exact onUnit_keeps _ s (Nat.le_refl _)

theorem clearEnable_keeps (s : State) : Keeps leavingUnit s (clearEnable s) := by
  unfold clearEnable
  split
  · exact disableArea_keeps s
  · exact Keeps.refl _ s

theorem lookNow_keeps (s : State) : Keeps p s (lookNow s) := by
  unfold lookNow
  split
  · exact askScan_keeps _ s
  · exact Keeps.refl _ s

theorem writeRegister_keeps (r : Register) (v : Word) (s : State) : Keeps leavingUnit s (writeRegister r v s) := by
  cases r with
  | xbaseL | xbaseH =>
    simp only [writeRegister]
    split
    · exact Keeps.refl _ s
    · exact (onUnit_keeps _ s (Nat.le_refl _)).mono rfl
  | xctl =>
    simp only [writeRegister]
    split
    · exact (setEnable_keeps s).mono rfl
    · exact clearEnable_keeps s
  | xlook => exact lookNow_keeps s
  | xstat | xident => exact Keeps.refl _ s

theorem takeHeader_keeps (bytes : List Byte) (s : State) : Keeps leavingUnit s (takeHeader bytes s) := by
  unfold takeHeader
  split
  · exact checkHeader_keeps bytes s
  · exact (onUnit_keeps _ s (Nat.le_refl _)).mono rfl

/-! ## Completions of the exchange unit's operations (R150, R155 to R162) -/

theorem takeCapability_scoresOk (h : ScoresOk s) : ScoresOk (takeCapability s) := by
  unfold takeCapability
  split
  · exact (becomeActive_keeps _ s).scoresOk rfl h
  all_goals exact h

/-- A scan's next operation keeps the law if it does on a scan that goes on. -/
theorem scanOn_scoresOk {f : State → State} (h : ScoresOk s) (k : ScoresOk (f s)) : ScoresOk (scanOn f s) := by
  unfold scanOn
  split
  · exact (endScan_keeps (p := exchangeOnly) s).scoresOk rfl h
  · exact k

/-- A programme's delivery leaves the working tables (R157). -/
theorem takePage_scoresOk (page : List Byte) (h : ScoresOk s) : ScoresOk (takePage page s) := by
  have delivered : ScoresOk (deliverProgramme (takeProgramme (effectiveProgramme s) page) s) := h
  exact (accrue_keeps (p := exchangeOnly) (takeFlags page) _).scoresOk rfl delivered

theorem echoDone_scoresOk (h : ScoresOk s) : ScoresOk (echoDone s) := by
  unfold echoDone
  split
  · exact scanOn_scoresOk (s := s.land _) h h
  · exact h

theorem cellLeft_scoresOk (k : CellNo) (found : Word) (h : ScoresOk s) : ScoresOk (cellLeft k found s) := by
  unfold cellLeft
  refine (treatBoard_keeps _ _).scoresOk rfl ?_
  split <;> exact h

theorem takeDone_scoresOk (found : Word) (h : ScoresOk s) : ScoresOk (takeDone found s) := by
  unfold takeDone
  split
  · split
    · exact scanOn_scoresOk (s := putStateWord _ _ _ s) h h
    · exact scanOn_scoresOk h (cellLeft_scoresOk _ found h)
  · exact h

theorem writeAccepted_scoresOk (h : ScoresOk s) : ScoresOk (writeAccepted s) := by
  unfold writeAccepted
  split
  · exact h
  next w _ =>
    split
    · exact (jobDone_keeps _ (s.land w)).scoresOk rfl h
    · exact h

theorem resultSettled_scoresOk (found : Word) (h : ScoresOk s) : ScoresOk (resultSettled found s) := by
  unfold resultSettled
  split
  · exact h
  · split
    · refine (jobDone_keeps _ _).scoresOk rfl ((settleEntry_keeps (p := exchangeOnly) _ _ _ _).scoresOk rfl ?_)
      split <;> exact h
    · exact h

/-! ## Orders (R100, R102, R132, R158) -/

/-- An order's run keeps the law if its owner does. -/
theorem runOrder_scoresOk (head : OrderHead) {owner : OrderRef → State → State}
    (k : ∀ o u, ScoresOk u → ScoresOk (owner o u)) (h : ScoresOk s) : ScoresOk (runOrder head owner s) := by
  unfold runOrder
  split
  · split
    · exact (endScan_keeps (p := exchangeOnly) s).scoresOk rfl h
    · exact (treatBoard_keeps _ _).scoresOk rfl (k _ (s.putCell _ _) h)
  · exact h

theorem takeTest_scoresOk (a : TestArgs) (o : OrderRef) (h : ScoresOk s) : ScoresOk (takeTest a o s) := by
  unfold takeTest
  split
  · exact (giveResult_keeps (p := exchangeOnly) o _ s).scoresOk rfl h
  · split
    · exact (giveResult_keeps (p := exchangeOnly) o _ s).scoresOk rfl h
    · unfold joinQueue
      dsimp only
      split
      · exact (judgeQueue_keeps _).scoresOk rfl h
      · exact h

theorem takeClear_scoresOk (zone : Nat) (o : OrderRef) (h : ScoresOk s) : ScoresOk (takeClear zone o s) := by
  unfold takeClear
  split
  · exact (giveResult_keeps (p := exchangeOnly) o _ s).scoresOk rfl h
  · have answered : ScoresOk (giveResult o .ok (clearZones zone s)) :=
      (giveResult_keeps (p := exchangeOnly) o _ _).scoresOk rfl (clearZones_scoresOk zone h)
    exact (requestMirror_keeps (p := exchangeOnly) _).scoresOk rfl answered

theorem takeRelease_scoresOk (o : OrderRef) (h : ScoresOk s) : ScoresOk (takeRelease o s) :=
  (giveResult_keeps (p := exchangeOnly) o .ok (releaseLatch s)).scoresOk rfl h

/-! ## Resets and the tick (R179) -/

theorem tick_scoresOk (h : ScoresOk s) : ScoresOk (tick s) := by
  have aged : ScoresOk (ageState s) := by
    unfold ageState
    dsimp only
    split <;> exact h
  exact aged

/-! ## Every command -/

/-- Every next state that an answer gives has a property. -/
def Ensures (P : State → Prop) (a : Answer) : Prop := ∀ t, a = .next t → P t

theorem ensures_next {P : State → Prop} (h : P t) : Ensures P (.next t) := fun _ e => by
  injection e with e
  exact e ▸ h

/-- A command keeps a property if its effect does where it is due. -/
theorem ensures_respond {P : State → Prop} {due : State → Bool} {f : State → State} (h : P s) (k : due s = true → P (f s)) :
    Ensures P (respond due f s) := by
  refine ensures_next ?_
  split
  next runs =>
    obtain ⟨-, hd⟩ := Bool.and_eq_true_iff.1 runs
    exact k hd
  · exact h

theorem execSupplyReturnDelayExpiry_scoresOk (h : ScoresOk s) : Ensures ScoresOk (execSupplyReturnDelayExpiry s) := by
  refine ensures_next ?_
  dsimp only
  split
  · split <;> exact h
  · exact h

theorem execResetEnd_scoresOk (pin : ResetPin) (h : ScoresOk s) : Ensures ScoresOk (execResetEnd pin s) := by
  refine ensures_next ?_
  dsimp only
  split
  · exact h
  · split <;> exact h

theorem execSuppliesReturnWithinRange_scoresOk (h : ScoresOk s) : Ensures ScoresOk (execSuppliesReturnWithinRange s) := by
  refine ensures_next ?_
  split <;> exact h

theorem execResetTaken_scoresOk (h : ScoresOk s) : Ensures ScoresOk (execResetTaken s) := by
  refine ensures_next ?_
  split
  · exact scoresOk_of_noTables rfl
  · exact h

/-- Every command keeps the law of R96. -/
theorem exec_scoresOk (i : Instr) (h : ScoresOk s) : Ensures ScoresOk (exec i s) := by
  unfold exec
  cases i with
  | supplyOutOfRange => exact ensures_next (scoresOk_of_noTables rfl)
  | suppliesReturnWithinRange => exact execSuppliesReturnWithinRange_scoresOk h
  | supplyReturnDelayExpiry => exact execSupplyReturnDelayExpiry_scoresOk h
  | resetTaken => exact execResetTaken_scoresOk h
  | resetEnd pin => exact execResetEnd_scoresOk pin h
  | rstLow pin | functionLevelReset | lineRawChange line mv => exact ensures_next h
  | lineFilterExpiry line => exact ensures_respond h fun _ => deliverEdge_scoresOk (s := s.putLine _ _) line _ h
  | windowOpen w | windowClose w | clockWrap | hitCrossing c a | lockoutExpiry c | routeEnd c | lampBlinkToggle
  | enableHeaderReadStart => exact ensures_respond h fun _ => h
  | stall => exact ensures_respond h fun _ => (takeStall_keeps s).scoresOk rfl h
  | hitStart c a => exact ensures_respond h fun _ => (startHit_keeps c _ a s).scoresOk rfl h
  | hdtExpiry c => exact ensures_respond h fun _ => (endOpenHit_keeps c false s).scoresOk rfl h
  | maxDurationExpiry c => exact ensures_respond h fun _ => (endOpenHit_keeps c true s).scoresOk rfl h
  | settleExpiry c ua => exact ensures_respond h fun _ => (settleChannel_keeps c ua s).scoresOk rfl h
  | biasOverload c => exact ensures_respond h fun _ => (overload_keeps c s).scoresOk rfl h
  | eventDeadline serial => exact ensures_respond h fun _ => (takeDeadline_keeps serial s).scoresOk rfl h
  | mountTimerExpiry => exact ensures_respond h fun _ => (mountTimeout_keeps s).scoresOk rfl h
  | attemptEndTick => exact ensures_respond h fun _ => (takeEndTick_keeps s).scoresOk rfl h
  | restExpiry => exact ensures_respond h fun _ => (takeRest_keeps s).scoresOk rfl h
  | registerWrite r v => exact ensures_respond h fun _ => (writeRegister_keeps r v s).scoresOk rfl h
  | enable => exact ensures_respond h fun _ => (setEnable_keeps s).scoresOk rfl h
  | enableHeaderReadDone bytes => exact ensures_respond h fun _ => (takeHeader_keeps bytes s).scoresOk rfl h
  | capabilityWriteDone => exact ensures_respond h fun _ => takeCapability_scoresOk h
  | disable => exact ensures_respond h fun _ => (clearEnable_keeps s).scoresOk rfl h
  | look => exact ensures_respond h fun _ => (lookNow_keeps (p := exchangeOnly) s).scoresOk rfl h
  | scanHeaderReadDone bytes => exact ensures_respond h fun _ => scanOn_scoresOk h h
  | programmeReadDone bytes => exact ensures_respond h fun _ => scanOn_scoresOk h (takePage_scoresOk bytes h)
  | echoWriteDone => exact ensures_respond h fun _ => echoDone_scoresOk h
  | boardReadDone bytes => exact ensures_respond h fun _ => scanOn_scoresOk h ((treatBoard_keeps allCells _).scoresOk rfl h)
  | cellTakeCasDone found => exact ensures_respond h fun _ => takeDone_scoresOk found h
  | mount notify tag offset fresh =>
    exact ensures_respond h fun _ => runOrder_scoresOk _ (fun o u => (takeMount_keeps o offset fresh u).scoresOk rfl) h
  | dismount notify tag => exact ensures_respond h fun _ => runOrder_scoresOk _ (fun o u => (takeDismount_keeps o u).scoresOk rfl) h
  | testSensor notify tag source amplitude level attempts delay apply =>
    exact ensures_respond h fun _ => runOrder_scoresOk _ (fun o _ => takeTest_scoresOk _ o) h
  | clearZone notify tag zone => exact ensures_respond h fun _ => runOrder_scoresOk _ (fun o _ => takeClear_scoresOk zone o) h
  | releaseStop notify tag => exact ensures_respond h fun _ => runOrder_scoresOk _ (fun o _ => takeRelease_scoresOk o) h
  | badKind notify tag kind =>
    exact ensures_respond h fun _ =>
      runOrder_scoresOk _ (fun o u k => (giveResult_keeps (p := exchangeOnly) o .badKind u).scoresOk rfl k) h
  | mountFixedReadDone bytes => exact ensures_respond h fun _ => takeRead_scoresOk h ((takeFixed_keeps _ s).scoresOk rfl h)
  | mountDescriptionReadDone bytes =>
    refine ensures_respond h fun _ => takeRead_scoresOk h ?_
    split
    · exact h
    · exact takeDescription_scoresOk _ h
  | mountContextReadDone bytes =>
    refine ensures_respond h fun _ => takeRead_scoresOk h ?_
    split
    · exact h
    · exact takeContext_scoresOk (parseContext_inRange _ _ bytes) h
  | jobWriteAccepted => exact ensures_respond h fun _ => writeAccepted_scoresOk h
  | resultStateCasDone found => exact ensures_respond h fun _ => resultSettled_scoresOk found h
  | busError unit => exact ensures_respond h fun _ => (busErrorOf_keeps unit s).scoresOk rfl h

/-- Settles O57: a tick leaves the working tables, and the command at the front of the queue keeps the law. -/
theorem scoreAndRunLaw : Obligations.ScoreAndRunLaw := by
  intro s t h stepped
  unfold step at stepped
  split at stepped
  · exact ensures_next (P := ScoresOk) (tick_scoresOk h) t stepped
  next i rest _ => exact exec_scoresOk (s := { s with pending := rest }) i h t stepped

end Sys2Proof.Machine
end

section
/-! PROOF. The law of R144: a PULSING channel is the source of the LISTENING test at the head of the queue, on a STOPPED press.

Most operations start no pulse and leave what the law reads (`StartsNone`). One that ends an attempt leaves no channel PULSING
(`NonePulsing`) before it judges the queue, and only a judged queue pulses a source. -/

namespace Sys2Proof.Machine

open Sys2Proof

variable {p : Parts} {s t u : State}

/-! ## What the law reads, and what leaves it alone -/

/-- What the law reads of a test: its source, its state, and whether an attempt is in progress. -/
def Test.attempting (x : Test) : ChannelNo × TestState × Bool := (x.source, x.state, x.attempt.isSome)

theorem pulseOk_iff :
    PulseOk s ↔ ∀ c : ChannelNo, (s.channel c).state = .pulsing →
      s.timer.press = .stopped ∧ s.tester.head?.map Test.attempting = some (c, .listening, true) := by
  simp [PulseOk, Test.attempting]

/-- No channel becomes PULSING, a STOPPED press stays STOPPED, and the law reads the same of the head of the test queue. -/
structure StartsNone (s t : State) : Prop where
  states : ∀ c : ChannelNo, (t.channel c).state = .pulsing → (s.channel c).state = .pulsing
  press : s.timer.press = .stopped → t.timer.press = .stopped
  head : t.tester.head?.map Test.attempting = s.tester.head?.map Test.attempting

/-- No channel is PULSING. -/
def NonePulsing (s : State) : Prop := ∀ c : ChannelNo, (s.channel c).state ≠ .pulsing

/-- Only the source of the head of the test queue may be PULSING: what is left of the law while an attempt is being ended. -/
def OnlySourcePulses (s : State) : Prop :=
  ∀ c : ChannelNo, (s.channel c).state = .pulsing → s.tester.head?.map Test.source = some c

theorem StartsNone.refl (s : State) : StartsNone s s := ⟨fun _ => id, id, rfl⟩

theorem StartsNone.trans (h : StartsNone s t) (k : StartsNone t u) : StartsNone s u :=
  ⟨fun c e => h.states c (k.states c e), k.press ∘ h.press, k.head.trans h.head⟩

theorem StartsNone.foldl {α : Type} (f : State → α → State) (h : ∀ s x, StartsNone s (f s x)) (xs : List α) (s : State) :
    StartsNone s (xs.foldl f s) := by
  induction xs generalizing s with
  | nil => exact .refl s
  | cons x xs ih => exact (h s x).trans (ih _)

theorem StartsNone.pulseOk (k : StartsNone s t) (h : PulseOk s) : PulseOk t := by
  rw [pulseOk_iff] at h ⊢
  intro c pulsing
  obtain ⟨stopped, head⟩ := h c (k.states c pulsing)
  exact ⟨k.press stopped, k.head.trans head⟩

theorem StartsNone.nonePulsing (k : StartsNone s t) (h : NonePulsing s) : NonePulsing t := fun c e => h c (k.states c e)

theorem StartsNone.onlySource (k : StartsNone s t) (h : OnlySourcePulses s) : OnlySourcePulses t := by
  intro c pulsing
  have source (v : State) : v.tester.head?.map Test.source = (v.tester.head?.map Test.attempting).map Prod.fst := by
    rw [Option.map_map]
    rfl
  rw [source, k.head, ← source]
  exact h c (k.states c pulsing)

theorem NonePulsing.pulseOk (h : NonePulsing s) : PulseOk s := fun c e => absurd e (h c)

theorem NonePulsing.onlySource (h : NonePulsing s) : OnlySourcePulses s := fun c e => absurd e (h c)

theorem PulseOk.onlySource (h : PulseOk s) : OnlySourcePulses s := fun c e => by
  obtain ⟨-, x, hx, source, -⟩ := h c e
  rw [Option.mem_def.1 hx, Option.map_some, source]

theorem PulseOk.head_of_pulsing {x : Test} {xs : List Test} {c : ChannelNo} (h : PulseOk s) (head : s.tester = x :: xs)
    (pulsing : (s.channel c).state = .pulsing) : x.source = c ∧ x.state = .listening := by
  obtain ⟨-, y, hy, source, listening, -⟩ := h c pulsing
  simp only [head, List.head?_cons, Option.mem_def, Option.some.injEq] at hy
  exact hy ▸ ⟨source, listening⟩

/-- While the head is not LISTENING, no channel is PULSING. -/
theorem PulseOk.nonePulsing_of_head {x : Test} {xs : List Test} (h : PulseOk s) (head : s.tester = x :: xs)
    (k : x.state ≠ .listening) : NonePulsing s := fun _ e =>
  have ⟨_, listening⟩ := h.head_of_pulsing head e
  k listening

theorem PulseOk.nonePulsing_of_empty (h : PulseOk s) (empty : s.tester = []) : NonePulsing s := fun c e => by
  obtain ⟨-, x, hx, -⟩ := h c e
  simp [empty] at hx

/-- What leaves the front end leaves every channel. -/
theorem Keeps.channel (k : Keeps p s t) (c : ChannelNo) (w : p.front = false := by rfl) : t.channel c = s.channel c :=
  congrArg (fun f : FrontEnd => f.channels[c]) (k.front w)

/-- The blocks that the law reads are left. -/
def Parts.pulseless (p : Parts) : Bool := !p.timer && !p.front && !p.tester

/-- What leaves the cycle timer, the channels and the tester starts no pulse. -/
theorem Keeps.startsNone (k : Keeps p s t) (w : p.pulseless = true := by rfl) : StartsNone s t := by
  simp only [Parts.pulseless, Bool.and_eq_true, Bool.not_eq_true'] at w
  obtain ⟨⟨timer, front⟩, tester⟩ := w
  exact ⟨fun c e => k.channel c front ▸ e, fun e => by rw [k.timer timer, e], by rw [k.tester tester]⟩

/-! ## Updates of one block -/

/-- A channel's record changed, and not to PULSING. -/
theorem onChannel_startsNone (c : ChannelNo) {f : Channel → Channel} (s : State)
    (hf : ∀ x, (f x).state = .pulsing → x.state = .pulsing) : StartsNone s (s.onChannel c f) where
  states d e := by
    by_cases same : d = c
    · subst same
      rw [State.channel_onChannel_self] at e
      exact hf _ e
    · rwa [State.channel_onChannel_ne s same] at e
  press := id
  head := rfl

theorem onTimer_startsNone {f : CycleTimer → CycleTimer} (s : State) (hf : ∀ x, x.press = .stopped → (f x).press = .stopped) :
    StartsNone s (s.onTimer f) := ⟨fun _ => id, hf _, rfl⟩

/-- The head test changed in what the law does not read. -/
theorem onTest_startsNone {f : Test → Test} (s : State) (hf : ∀ x, (f x).attempting = x.attempting) : StartsNone s (s.onTest f) := by
  unfold State.onTest
  split
  · exact .refl s
  next head => exact ⟨fun _ => id, id, by simp [head, hf]⟩

theorem onTest_onlySource {f : Test → Test} (hf : ∀ x, (f x).source = x.source) (h : OnlySourcePulses s) :
    OnlySourcePulses (s.onTest f) := by
  intro c pulsing
  rw [State.channel, State.onTest_front] at pulsing
  have source := h c pulsing
  cases tester : s.tester with
  | nil => simp [tester] at source
  | cons x xs => simpa [State.onTest_tester_cons s f tester, tester, hf] using source

theorem onTest_nonePulsing (f : Test → Test) (h : NonePulsing s) : NonePulsing (s.onTest f) := fun c e =>
  h c (by rwa [State.channel, State.onTest_front] at e)

theorem onMould_startsNone (f : MouldManager → MouldManager) (s : State) : StartsNone s (s.onMould f) := (onMould_keeps f s).startsNone

theorem giveResult_startsNone (o : OrderRef) (r : OrderResult) (s : State) : StartsNone s (giveResult o r s) :=
  (giveResult_keeps (p := exchangeOnly) o r s).startsNone

theorem mouldFollow_startsNone (c : ChannelNo) (s : State) : StartsNone s (mouldFollow c s) := (mouldFollow_keeps c s).startsNone

/-! ## Hits, routes and releases (R30, R35, R38, R41, R42, R138) -/

theorem clearRoute_startsNone (c : ChannelNo) (s : State) : StartsNone s (clearRoute c s) :=
  onChannel_startsNone c s fun _ => id

theorem clearRoutes_startsNone (ps : List Partner) (s : State) : StartsNone s (clearRoutes ps s) := by
  refine .foldl _ (fun s x => ?_) _ _
  split
  · exact clearRoute_startsNone _ s
  · exact .refl s

theorem setRoutes_startsNone (w : Word) (ps : List Partner) (s : State) : StartsNone s (setRoutes w ps s) := by
  refine .foldl _ (fun s x => ?_) _ _
  split
  · exact onChannel_startsNone _ s fun _ => id
  · exact .refl s

theorem testHitStart_startsNone (c : ChannelNo) (w : Word) (s : State) : StartsNone s (testHitStart c w s) :=
  onTest_startsNone s fun x => by split <;> rfl

theorem noteHitEnd_startsNone (c : ChannelNo) (e : HitEnd) (s : State) : StartsNone s (noteHitEnd c e s) :=
  onTest_startsNone s fun x => by
    split
    · rfl
    next attempt => simp [Test.attempting, attempt]

theorem startHit_startsNone (c : ChannelNo) (b a : Nat) (s : State) : StartsNone s (startHit c b a s) := by
  unfold startHit deliverStart
  dsimp only
  refine .trans (t := s.onChannel c fun ch => { ch with detector := .inHit, hit := some (openedHit s c b a) })
    (onChannel_startsNone c s fun _ => id) ?_
  split
  · exact (corrHitStart_keeps _ _ _ _).startsNone
  · exact testHitStart_startsNone _ _ _

/-- A cut of every open hit ends no attempt, so it starts none. -/
theorem cutHits_startsNone (s : State) : StartsNone s (cutHits s) := by
  refine .foldl _ (fun s c => ?_) _ _
  unfold cutHit
  split
  · exact .refl s
  · refine (onChannel_startsNone c s (f := fun ch => Channel.armed { ch with hit := none }) fun _ => id).trans ?_
    unfold deliverEnd
    split
    · exact (noteCorrEnd_keeps _ _ _).startsNone
    · exact noteHitEnd_startsNone _ _ _

theorem cutRequest_startsNone (s : State) : StartsNone s (cutRequest s) :=
  (cutHits_startsNone s).trans (cutEvents_keeps _).startsNone

/-- A release leaves PULSING only channels that were so, and not its own. -/
theorem releaseSource_pulsing {c d : ChannelNo} (h : ((releaseSource c s).channel d).state = .pulsing) :
    (s.channel d).state = .pulsing ∧ d ≠ c := by
  unfold releaseSource at h
  split at h
  · rw [(mouldFollow_keeps c _).channel d] at h
    by_cases same : d = c
    · subst same
      rw [State.channel_onChannel_self] at h
      exact absurd h (by simp [Channel.armed])
    · rw [State.channel_onChannel_ne s same] at h
      exact ⟨h, same⟩
  next quiet => exact ⟨h, fun same => quiet (same ▸ h)⟩

/-- The release of the only channel that may be PULSING leaves none (R41). -/
theorem releaseSource_nonePulsing {c : ChannelNo} (h : ∀ d : ChannelNo, (s.channel d).state = .pulsing → d = c) :
    NonePulsing (releaseSource c s) := fun d e =>
  have ⟨pulsing, other⟩ := releaseSource_pulsing e
  other (h d pulsing)

theorem releaseHead_nonePulsing (h : OnlySourcePulses s) : NonePulsing (releaseHead s) := by
  unfold releaseHead
  split
  next empty => exact fun c e => by simpa [empty] using h c e
  next x xs head =>
    refine releaseSource_nonePulsing fun d e => ?_
    have source := h d e
    simp only [head, List.head?_cons, Option.map_some, Option.some.injEq] at source
    exact source.symm

/-- An attempt forgotten leaves its source to be released. -/
theorem forgetAttempt_onlySource (h : OnlySourcePulses s) : OnlySourcePulses (forgetAttempt s) := by
  unfold forgetAttempt
  split
  · exact h
  · exact onTest_onlySource (fun _ => rfl) ((clearRoutes_startsNone _ s).onlySource h)

/-! ## The head of the queue is judged (R135 to R137, R139) -/

/-- A pulse request makes its source PULSING and no other channel (R40). -/
theorem pulseSource_pulsing {c d : ChannelNo} {level : Nat} (quiet : NonePulsing s)
    (h : ((pulseSource c level s).channel d).state = .pulsing) : d = c := by
  by_contra other
  have idled : StartsNone s (s.onChannel c Channel.idled) := onChannel_startsNone c s fun _ => id
  unfold pulseSource at h
  rw [(mouldFollow_keeps c _).channel d, State.channel_onChannel_ne _ other] at h
  split at h
  · exact quiet d (idled.states d h)
  · exact quiet d ((idled.trans (deliverOutsideAttempt_keeps _ _ _).startsNone).states d h)

/-- A pulse request leaves the test queue. -/
theorem pulseSource_tester (c : ChannelNo) (level : Nat) (s : State) : (pulseSource c level s).tester = s.tester := by
  unfold pulseSource
  dsimp only
  rw [(mouldFollow_keeps c _).tester rfl, State.onChannel_tester]
  split
  · rfl
  · exact (deliverOutsideAttempt_keeps _ _ _).tester rfl

/-- An attempt driven on a STOPPED press, while no channel is PULSING, has its source PULSING and no other (R137). -/
theorem driveAttempt_pulseOk (x : Test) (quiet : NonePulsing s) (stopped : s.timer.press = .stopped) (nonempty : s.tester ≠ []) :
    PulseOk (driveAttempt x s) := by
  intro d pulsing
  have timer : (driveAttempt x s).timer = s.timer := (driveAttempt_keeps x s).timer rfl
  refine ⟨by rw [timer, stopped], ?_⟩
  unfold driveAttempt at pulsing ⊢
  dsimp only at pulsing ⊢
  have source : d = x.source := by
    rw [State.channel, State.onTest_front] at pulsing
    exact pulseSource_pulsing quiet ((setRoutes_startsNone _ _ _).states d pulsing)
  obtain ⟨y, ys, head⟩ := List.exists_cons_of_ne_nil nonempty
  have queue : (setRoutes s.timer.clock x.partners (pulseSource x.source x.level s)).tester = y :: ys := by
    rw [(setRoutes_keeps _ _ _).tester rfl, pulseSource_tester, head]
  rw [State.onTest_tester_cons _ _ queue]
  exact ⟨_, rfl, source.symm, rfl, rfl⟩

/-- A test that ends leaves every channel. -/
theorem dropHead_endTest_nonePulsing (how : TestEnd) (x : Test) (h : NonePulsing s) : NonePulsing (dropHead (endTest how x s)) :=
  (endTest_keeps how x s).startsNone.nonePulsing h

theorem judgeHead_pulseOk (n : Nat) (h : PulseOk s) : PulseOk (judgeHead n s) := by
  induction n generalizing s with
  | zero => exact h
  | succ n ih =>
    unfold judgeHead
    split
    · exact h
    next x xs head =>
      split
      · exact h
      next waiting =>
        have quiet : NonePulsing s := h.nonePulsing_of_head head (by simp [not_not.1 waiting])
        have next_judged (how : TestEnd) (y : Test) : PulseOk (judgeHead n (dropHead (endTest how y s))) :=
          ih (dropHead_endTest_nonePulsing how y quiet).pulseOk
        split
        · exact next_judged _ _
        · split
          next due =>
            simp only [startable, Bool.and_eq_true, decide_eq_true_eq] at due
            obtain ⟨⟨stopped, -⟩, -⟩ := due
            dsimp only
            split
            · exact driveAttempt_pulseOk _ quiet stopped (by simp [head])
            · exact next_judged _ _
          · exact h

theorem judgeQueue_pulseOk (h : PulseOk s) : PulseOk (judgeQueue s) := judgeHead_pulseOk _ h

/-- An attempt is judged with its source released; what is judged next may pulse. -/
theorem judgeAttempt_pulseOk (h : NonePulsing s) : PulseOk (judgeAttempt s) := by
  unfold judgeAttempt
  split
  · exact h.pulseOk
  · dsimp only
    split
    · exact judgeQueue_pulseOk (dropHead_endTest_nonePulsing _ _ h).pulseOk
    · exact (onTest_nonePulsing _ h).pulseOk

/-- A drained attempt has its source released already (R137, R139). -/
theorem testHitEnd_pulseOk (c : ChannelNo) (e : HitEnd) (h : PulseOk s) : PulseOk (testHitEnd c e s) := by
  have noted : PulseOk (noteHitEnd c e s) := (noteHitEnd_startsNone c e s).pulseOk h
  unfold testHitEnd
  dsimp only
  split
  next draining =>
    unfold drained at draining
    split at draining
    · exact absurd draining Bool.false_ne_true
    next head =>
      simp only [Bool.and_eq_true, decide_eq_true_eq] at draining
      obtain ⟨drains, -⟩ := draining
      exact judgeAttempt_pulseOk (noted.nonePulsing_of_head head (by simp [drains]))
  · exact noted

/-- The end tick releases the source before anything is judged (R137). -/
theorem endAttemptTick_pulseOk (x : Test) (h : ∀ c : ChannelNo, (s.channel c).state = .pulsing → c = x.source) :
    PulseOk (endAttemptTick x s) := by
  have quiet : NonePulsing (clearRoutes x.partners (releaseSource x.source s)) :=
    (clearRoutes_startsNone _ _).nonePulsing (releaseSource_nonePulsing h)
  unfold endAttemptTick
  dsimp only
  split
  · exact (onTest_nonePulsing _ quiet).pulseOk
  · exact judgeAttempt_pulseOk quiet

theorem takeEndTick_pulseOk (h : PulseOk s) : PulseOk (takeEndTick s) := by
  unfold takeEndTick
  split
  · exact h
  next head =>
    refine endAttemptTick_pulseOk _ fun c e => ?_
    obtain ⟨source, -⟩ := h.head_of_pulsing head e
    exact source.symm

theorem takeRest_pulseOk (due : restDue s = true) (h : PulseOk s) : PulseOk (takeRest s) := by
  unfold restDue at due
  split at due
  · exact absurd due Bool.false_ne_true
  next head =>
    simp only [Bool.and_eq_true, decide_eq_true_eq] at due
    obtain ⟨rests, -⟩ := due
    exact judgeQueue_pulseOk (onTest_nonePulsing _ (h.nonePulsing_of_head head (by simp [rests]))).pulseOk

theorem takeStall_pulseOk (h : PulseOk s) : PulseOk (takeStall s) := by
  have stopped := onTimer_startsNone (f := fun x => { x with press := .stopped, stallMark := true }) s fun _ _ => rfl
  exact judgeQueue_pulseOk ((stopped.trans (handCondition_keeps (p := exchangeOnly) _ _ _ _).startsNone).pulseOk h)

/-- A test that joins an empty queue finds no channel PULSING; one that joins a longer queue leaves its head (R134). -/
theorem joinQueue_pulseOk (x : Test) (h : PulseOk s) : PulseOk (joinQueue x s) := by
  unfold joinQueue
  dsimp only
  cases tester : s.tester with
  | nil =>
    have quiet : NonePulsing s := h.nonePulsing_of_empty tester
    exact judgeQueue_pulseOk (NonePulsing.pulseOk (s := { s with tester := [x] }) quiet)
  | cons y ys =>
    have behind : StartsNone s { s with tester := y :: ys ++ [x] } := ⟨fun _ => id, id, by simp [tester]⟩
    exact behind.pulseOk h

theorem takeTest_pulseOk (a : TestArgs) (o : OrderRef) (h : PulseOk s) : PulseOk (takeTest a o s) := by
  have answered (r : OrderResult) : PulseOk (giveResult o r s) := (giveResult_startsNone o r s).pulseOk h
  unfold takeTest
  split
  · exact answered _
  · split
    · exact answered _
    · exact joinQueue_pulseOk _ h

/-- An abort ends the attempt, and releases its source, before the queue is emptied (R142). -/
theorem abortTests_pulseOk (h : PulseOk s) : PulseOk (abortTests s) := by
  have quiet : NonePulsing (releaseHead (forgetAttempt s)) := releaseHead_nonePulsing (forgetAttempt_onlySource h.onlySource)
  have ended (xs : List Test) (u : State) : StartsNone u (xs.foldl (fun u x => endTest .aborted x u) u) :=
    .foldl _ (fun u x => (endTest_keeps .aborted x u).startsNone) xs u
  exact ((ended _ { releaseHead (forgetAttempt s) with tester := [] }).nonePulsing quiet).pulseOk

/-- A source that becomes FAULT is PULSING no more when its test ends (R143). -/
theorem testerFollow_pulseOk (c : ChannelNo) (h : PulseOk s) : PulseOk (testerFollow c s) := by
  unfold testerFollow
  split
  · exact h
  next x xs head =>
    split
    next faulted =>
      simp only [Bool.and_eq_true, decide_eq_true_eq] at faulted
      obtain ⟨source, fault⟩ := faulted
      have quiet : NonePulsing s := fun d e => by
        obtain ⟨pulses, -⟩ := h.head_of_pulsing head e
        rw [← pulses, source, fault] at e
        exact ChannelState.noConfusion e
      exact judgeQueue_pulseOk
        (dropHead_endTest_nonePulsing _ _ ((clearRoutes_startsNone _ s).nonePulsing quiet)).pulseOk
    · exact h

/-! ## The channel front end (R22 to R25, R32 to R35) -/

theorem deliverEnd_pulseOk (c : ChannelNo) (r : Receiver) (e : HitEnd) (h : PulseOk s) : PulseOk (deliverEnd false c r e s) := by
  cases r with
  | correlator => exact (corrHitEnd_keeps c e s).startsNone.pulseOk h
  | tester => exact testHitEnd_pulseOk c e h

theorem afterHit_state (hit : OpenHit) (x : Channel) : (x.afterHit hit).state = x.state := by
  unfold Channel.afterHit
  split <;> rfl

theorem endOpenHit_pulseOk (c : ChannelNo) (long : Bool) (h : PulseOk s) : PulseOk (endOpenHit c long s) := by
  unfold endOpenHit
  split
  · exact h
  next hit _ =>
    exact deliverEnd_pulseOk _ _ _ ((onChannel_startsNone c s fun x e => afterHit_state hit x ▸ e).pulseOk h)

theorem cutHit_pulseOk (c : ChannelNo) (h : PulseOk s) : PulseOk (cutHit false Channel.idled c s) := by
  unfold cutHit
  split
  · exact h
  · exact deliverEnd_pulseOk _ _ _ ((onChannel_startsNone c s (by exact fun _ => id)).pulseOk h)

theorem biasOn1_startsNone (code : Nat) (c : ChannelNo) (s : State) : StartsNone s (biasOn1 code c s) := by
  unfold biasOn1
  split
  iterate 2 exact (onChannel_startsNone c s (by exact fun _ => nofun)).trans (mouldFollow_startsNone _ _)
  · exact .refl s

theorem biasOff1_pulseOk (c : ChannelNo) (h : PulseOk s) : PulseOk (biasOff1 c s) := by
  have cut := cutHit_pulseOk c h
  unfold biasOff1
  dsimp only
  split
  · exact cut
  · exact ((onChannel_startsNone c _ (by exact fun _ => nofun)).trans (mouldFollow_startsNone _ _)).pulseOk cut

theorem faultChannel_pulseOk (c : ChannelNo) (h : PulseOk s) : PulseOk (faultChannel c s) := by
  have fault : StartsNone s (s.onChannel c (Channel.unbiased .fault)) := onChannel_startsNone c s (by exact fun _ => nofun)
  exact testerFollow_pulseOk c <|
    ((fault.trans (mouldFollow_startsNone _ _)).trans (handCondition_keeps (p := exchangeOnly) _ _ _ _).startsNone).pulseOk h

theorem overload_pulseOk (c : ChannelNo) (h : PulseOk s) : PulseOk (overload c s) := faultChannel_pulseOk c (cutHit_pulseOk c h)

theorem settleChannel_pulseOk (c : ChannelNo) (ua : Nat) (h : PulseOk s) : PulseOk (settleChannel c ua s) := by
  unfold settleChannel
  split
  · exact ((onChannel_startsNone c s (by exact fun _ => nofun)).trans (mouldFollow_startsNone _ _)).pulseOk h
  · exact faultChannel_pulseOk c h

theorem biasOnUsed_startsNone (s : State) : StartsNone s (biasOnUsed s) := .foldl _ (fun t c => biasOn1_startsNone _ c t) _ _

theorem biasOffUsed_pulseOk (h : PulseOk s) : PulseOk (biasOffUsed s) :=
  List.foldlRecOn s.mould.used _ h fun _ k c _ => biasOff1_pulseOk c k

/-! ## The mould manager (R110 to R123) -/

theorem leaveMould_startsNone (s : State) : StartsNone s (leaveMould s) := by
  have unset : StartsNone (discardTables s) (unsetThresholds (discardTables s)) :=
    .foldl _ (fun t c => onChannel_startsNone c (f := fun ch => { ch with base := none }) t fun _ => id) _ _
  exact (discardTables_keeps s).startsNone.trans (unset.trans (onMould_startsNone _ _))

theorem endOrder_startsNone (r : OrderResult) (s : State) : StartsNone s (endOrder r s) :=
  (leaveMould_startsNone s).trans <|
    (answerOrder_keeps (p := exchangeOnly) r _).startsNone.trans (dropOrder_keeps _).startsNone

theorem leaveWithMirror_startsNone (s : State) : StartsNone s (leaveWithMirror s) :=
  (leaveMould_startsNone s).trans (requestMirror_keeps (p := exchangeOnly) _).startsNone

theorem completeDismount_startsNone (r : OrderResult) (s : State) : StartsNone s (completeDismount r s) :=
  (endOrder_startsNone r s).trans (requestMirror_keeps (p := exchangeOnly) _).startsNone

theorem offerSave_startsNone (b : SavedBy) (s : State) : StartsNone s (offerSave b s) := by
  unfold offerSave
  split
  next created => exact (createSave_keeps _ s (room_of_created created)).startsNone.trans (leaveWithMirror_startsNone _)
  next created _ => exact (createSave_keeps _ s (room_of_created created)).startsNone
  · exact onMould_startsNone _ s
  · exact onMould_startsNone _ s
  · exact completeDismount_startsNone _ s
  · exact leaveWithMirror_startsNone s

theorem offerPending_startsNone (s : State) : StartsNone s (offerPending s) := by
  unfold offerPending
  split
  · exact offerSave_startsNone _ s
  · exact offerSave_startsNone _ s
  · exact .refl s

theorem offerCheckpoint_startsNone (s : State) : StartsNone s (offerCheckpoint s) := by
  unfold offerCheckpoint
  split
  · exact offerSave_startsNone _ s
  · exact .refl s

theorem saveEnded_startsNone (b : SavedBy) (written : Bool) (s : State) : StartsNone s (saveEnded b written s) := by
  unfold saveEnded
  split
  · exact completeDismount_startsNone _ s
  · exact .refl s

theorem cancelReading_startsNone (s : State) : StartsNone s (cancelReading s) := by
  unfold cancelReading
  split
  · exact endOrder_startsNone _ s
  · exact .refl s

theorem enterSettling_startsNone (s : State) : StartsNone s (enterSettling s) :=
  (onMould_startsNone _ s).trans (biasOnUsed_startsNone _)

theorem enterClampWait_startsNone (s : State) : StartsNone s (enterClampWait s) := by
  unfold enterClampWait
  split
  · exact (onMould_startsNone _ s).trans (enterSettling_startsNone _)
  · exact onMould_startsNone _ s

theorem mouldCondition_startsNone (k : Condition) (s : State) : StartsNone s (mouldCondition k s) :=
  (mouldCondition_keeps (p := exchangeOnly) k s).startsNone

theorem clampLocks_startsNone (s : State) : StartsNone s (clampLocks s) := by
  unfold clampLocks
  split
  · exact enterSettling_startsNone s
  · exact (mouldCondition_startsNone _ s).trans (biasOnUsed_startsNone _)
  · exact .refl s

/-- The cut, the abort and the removal of bias, as every leaving and the opened clamp have them (R119, R121, R123). -/
theorem silenced_pulseOk (h : PulseOk s) : PulseOk (biasOffUsed (abortTests (cutRequest s))) :=
  biasOffUsed_pulseOk (abortTests_pulseOk ((cutRequest_startsNone s).pulseOk h))

theorem clampUnlocks_pulseOk (h : PulseOk s) : PulseOk (clampUnlocks s) := by
  unfold clampUnlocks
  split
  iterate 2 exact (mouldCondition_startsNone _ _).pulseOk (silenced_pulseOk ((onMould_startsNone _ s).pulseOk h))
  · exact biasOffUsed_pulseOk ((onMould_startsNone _ s).pulseOk h)
  · exact (mouldCondition_startsNone _ _).pulseOk (biasOffUsed_pulseOk h)
  · exact h

theorem mouldPulled_pulseOk (h : PulseOk s) : PulseOk (mouldPulled s) := by
  have pulled : PulseOk (pullMould s) := by
    unfold pullMould
    exact (mouldCondition_startsNone _ _).pulseOk (silenced_pulseOk h)
  unfold mouldPulled
  split
  · exact (endOrder_startsNone _ _).pulseOk pulled
  iterate 3 exact ((onMould_startsNone _ _).trans (offerSave_startsNone _ _)).pulseOk pulled
  iterate 2 exact h

theorem mountTimeout_pulseOk (h : PulseOk s) : PulseOk (mountTimeout s) :=
  (endOrder_startsNone _ _).pulseOk (biasOffUsed_pulseOk h)

theorem cancelMount_pulseOk (o : OrderRef) (h : PulseOk s) : PulseOk (cancelMount o s) := by
  have ended : PulseOk (endOrder .cancelled (biasOffUsed s)) := (endOrder_startsNone _ _).pulseOk (biasOffUsed_pulseOk h)
  exact ((giveResult_startsNone o _ _).trans (requestMirror_keeps (p := exchangeOnly) _).startsNone).pulseOk ended

theorem dismountMould_pulseOk (o : OrderRef) (h : PulseOk s) : PulseOk (dismountMould o s) := by
  unfold dismountMould
  dsimp only
  have left := (onMould_startsNone (fun m => { m with state := .dismounting, order := .dismount o, pendingSave := none }) s).pulseOk h
  exact (offerSave_startsNone .dismount _).pulseOk (silenced_pulseOk left)

theorem takeDismount_pulseOk (o : OrderRef) (h : PulseOk s) : PulseOk (takeDismount o s) := by
  unfold takeDismount
  split
  iterate 2 exact (giveResult_startsNone _ _ s).pulseOk h
  · exact cancelMount_pulseOk o h
  iterate 3 exact dismountMould_pulseOk o h

theorem takeFixed_startsNone (f : FixedPart) (s : State) : StartsNone s (takeFixed f s) := by
  unfold takeFixed
  refine (onMould_startsNone (fun m => { m with read := .none }) s).trans ?_
  dsimp only
  split
  · exact onMould_startsNone _ _
  · exact endOrder_startsNone _ _

theorem adoptDescription_startsNone (d : Description) (s : State) : StartsNone s (adoptDescription d s) := by
  have based (u : State) : StartsNone u (setThresholds d.channels u) :=
    .foldl _ (fun t (c : ChannelSpec) => onChannel_startsNone _ (f := fun ch => { ch with base := some c.threshold }) t fun _ => id) _ _
  exact (onMould_startsNone _ s).trans ((based _).trans (standTables_keeps d _).startsNone)

theorem takeDescription_startsNone (d : Description) (s : State) : StartsNone s (takeDescription d s) := by
  unfold takeDescription
  refine (onMould_startsNone (fun m => { m with read := .none }) s).trans ?_
  dsimp only
  split
  · exact endOrder_startsNone _ _
  · refine (adoptDescription_startsNone d _).trans ?_
    split
    · exact enterClampWait_startsNone _
    · exact onMould_startsNone _ _

theorem takeContext_startsNone (c : ContextRead) (s : State) : StartsNone s (takeContext c s) := by
  unfold takeContext
  refine (onMould_startsNone (fun m => { m with read := .none }) s).trans ?_
  dsimp only
  split
  · exact (onMould_startsNone _ _).trans (enterClampWait_startsNone _)
  · exact (loadContext_keeps c _).startsNone.trans ((onMould_startsNone _ _).trans (enterClampWait_startsNone _))

theorem takeRead_startsNone {kind : MountRead} {f : State → State} (k : StartsNone s (f s)) : StartsNone s (takeRead kind f s) := by
  unfold takeRead
  split
  · exact k
  · exact onMould_startsNone _ s

/-! ## The cycle close and the line edges (R4, R87, R141) -/

/-- Before part `k` of a close that releases its source in part `n`: only the source may be PULSING, and, once released, none is. -/
structure Released (n k : Nat) (s : State) : Prop where
  onlySource : OnlySourcePulses s
  done : n < k → NonePulsing s

theorem StartsNone.released {n k : Nat} (h : StartsNone s t) (r : Released n k s) : Released n k t :=
  ⟨h.onlySource r.onlySource, fun l => h.nonePulsing (r.done l)⟩

theorem releaseIn_released {n k : Nat} (r : Released n k s) : Released n (k + 1) (releaseIn n k s) := by
  unfold releaseIn
  split
  · have quiet := releaseHead_nonePulsing r.onlySource
    exact ⟨quiet.onlySource, fun _ => quiet⟩
  next later => exact ⟨r.onlySource, fun l => r.done (by omega)⟩

theorem closeSound_released (n : Nat) (h : PulseOk s) : Released n 2 (closeSound n s) := by
  have forgotten : OnlySourcePulses (testerClose s) := onTest_onlySource (fun _ => rfl) (forgetAttempt_onlySource h.onlySource)
  have started : Released n 1 (releaseIn n 0 (testerClose s)) := releaseIn_released ⟨forgotten, nofun⟩
  exact releaseIn_released (((cutHits_startsNone _).trans (cutEvents_keeps _).startsNone).released started)

theorem releasePart_lt (s : State) : releasePart s < 3 := by
  unfold releasePart
  split <;> omega

/-- The source's release has reached its channel when the next cycle opens. -/
theorem closedBlocks_nonePulsing (h : PulseOk s) : NonePulsing (closedBlocks s) := by
  have drawn : PulseOk (drawRelease s) := (drawRelease_keeps (p := exchangeOnly) s).startsNone.pulseOk h
  have sound := closeSound_released (releasePart s) drawn
  have evidence := ((zeroTally_keeps _).startsNone.trans (evidenceClose_keeps _).startsNone).released sound
  exact (mouldClose_keeps _).startsNone.nonePulsing ((releaseIn_released evidence).done (releasePart_lt s))

/-- No channel is PULSING in the RUNNING press that a close leaves (R141, R144). -/
theorem cycleClose_nonePulsing (h : PulseOk s) : NonePulsing (cycleClose s) := by
  rw [cycleClose_stages]
  exact ((exchangeClose_keeps (p := exchangeOnly) _ _).startsNone.trans
    ((offerCheckpoint_startsNone _).trans (offerPending_startsNone _))).nonePulsing (closedBlocks_nonePulsing h)

theorem phaseEdge_press (x : PhaseLine) (c : CycleTimer) : (phaseEdge x c).press = c.press := by
  unfold phaseEdge
  split <;> rfl

theorem lineEdge_startsNone (x : PhaseLine) (rising : Bool) (s : State) : StartsNone s (lineEdge x rising s) := by
  unfold lineEdge
  split
  · exact onTimer_startsNone s fun c e => (phaseEdge_press x c).trans e
  · exact .refl s

theorem deliverEdge_pulseOk (l : Line) (rising : Bool) (h : PulseOk s) : PulseOk (deliverEdge l rising s) := by
  cases l with
  | cyc =>
    simp only [deliverEdge, cycEdge]
    split
    · exact (cycleClose_nonePulsing h).pulseOk
    · exact h
  | feed | vib | tamp | strip => exact (lineEdge_startsNone _ rising s).pulseOk h
  | mpres =>
    cases rising with
    | true => exact h
    | false => exact mouldPulled_pulseOk h
  | clamp =>
    cases rising with
    | true => exact (clampLocks_startsNone s).pulseOk h
    | false => exact clampUnlocks_pulseOk h

/-! ## The exchange unit (R148 to R166) -/

theorem reportSave_startsNone (b : JobBody) (written : Bool) (s : State) : StartsNone s (reportSave b written s) := by
  unfold reportSave
  split
  · exact saveEnded_startsNone _ _ s
  · exact .refl s

/-- A job's end reports to the mould manager, which starts no pulse. -/
theorem jobDone_startsNone (b : JobBody) (s : State) : StartsNone s (jobDone b s) := by
  have ended : StartsNone s (placeWaiting (attnAfterJob b (noteWritten b (popJob s)))) :=
    ((((popJob_keeps s).trans (noteWritten_keeps b _)).trans (attnAfterJob_keeps b _)).trans (placeWaiting_keeps _)).startsNone
  exact ended.trans <| (reportSave_startsNone b true _).trans <|
    (offerPending_startsNone _).trans (issueNext_keeps (p := exchangeOnly) _).startsNone

theorem jobFailed_startsNone (s : State) : StartsNone s (jobFailed s) := by
  unfold jobFailed
  split
  · exact .refl s
  · refine (popJob_keeps s).startsNone.trans ?_
    dsimp only
    split
    · exact (settleEntry_keeps (p := exchangeOnly) _ _ _ _).startsNone
    · exact saveEnded_startsNone _ _ _
    · exact .refl _

theorem onXu_startsNone (f : Exchange → Exchange) (s : State) : StartsNone s (s.onXu f) := ⟨fun _ => id, id, rfl⟩

theorem land_startsNone (w : BusWrite) (s : State) : StartsNone s (s.land w) := ⟨fun _ => id, id, rfl⟩

theorem endScan_startsNone (s : State) : StartsNone s (endScan s) := (endScan_keeps (p := exchangeOnly) s).startsNone

theorem disableArea_startsNone (s : State) : StartsNone s (disableArea s) := by
  unfold disableArea
  split
  · exact (abandonEnable_keeps s).startsNone.trans (onXu_startsNone _ _)
  · have reported (js : List Job) (u : State) : StartsNone u (reportDiscarded js u) :=
      .foldl _ (fun u (j : Job) => reportSave_startsNone j.body false u) js u
    exact (onXu_startsNone clearUnit s).trans <| (abandonScan_keeps (p := exchangeOnly) _).startsNone.trans <|
      (reported _ _).trans <| (cancelReading_startsNone _).trans (offerPending_startsNone _)

/-- A bus error starts no pulse if the end of the failing operation does not (R152). -/
theorem areaFault_startsNone (code : Nat) {own : State → State} (k : ∀ u, StartsNone u (own u)) (s : State) :
    StartsNone s (areaFault code own s) := by
  unfold areaFault
  split
  · dsimp only
    refine (abandonEnable_keeps s).startsNone.trans <|
      (onXu_startsNone (fun x => { x with area := .areaFault, checkCode := code, attn := false }) _).trans ?_
    exact (abandonScan_keeps (p := exchangeOnly) _).startsNone.trans <| (k _).trans <|
      (dropWaiting_keeps (p := exchangeOnly) _).startsNone.trans <|
        (cancelReading_startsNone _).trans (offerPending_startsNone _)
  · exact k s

theorem busErrorOf_startsNone (unit : BusUnit) (s : State) : StartsNone s (busErrorOf unit s) := by
  cases unit with
  | enable =>
    simp only [busErrorOf, enableError]
    split
    iterate 2 exact areaFault_startsNone _ (fun u => onXu_startsNone _ u) s
    iterate 2 exact onXu_startsNone _ s
  | scan =>
    simp only [busErrorOf, scanError]
    split
    · exact .refl s
    · exact areaFault_startsNone _ endScan_startsNone s
  | mount =>
    simp only [busErrorOf, mountError]
    split
    · exact (onMould_startsNone _ s).trans (areaFault_startsNone _ StartsNone.refl _)
    · split
      · exact (onMould_startsNone _ s).trans (areaFault_startsNone _ StartsNone.refl _)
      · exact .refl s
  | job =>
    simp only [busErrorOf, jobError]
    split
    · split
      · exact areaFault_startsNone _ jobFailed_startsNone s
      · exact .refl s
    · exact .refl s

theorem clearEnable_startsNone (s : State) : StartsNone s (clearEnable s) := by
  unfold clearEnable
  split
  · exact disableArea_startsNone s
  · exact .refl s

theorem writeRegister_startsNone (r : Register) (v : Word) (s : State) : StartsNone s (writeRegister r v s) := by
  cases r with
  | xbaseL | xbaseH =>
    simp only [writeRegister]
    split
    · exact .refl s
    · exact onXu_startsNone _ s
  | xctl =>
    simp only [writeRegister]
    split
    · exact (setEnable_keeps s).startsNone
    · exact clearEnable_startsNone s
  | xlook => exact (lookNow_keeps (p := exchangeOnly) s).startsNone
  | xstat | xident => exact .refl s

theorem takeHeader_startsNone (bytes : List Byte) (s : State) : StartsNone s (takeHeader bytes s) := by
  unfold takeHeader checkHeader
  split
  · split
    · exact (fixHeader_keeps bytes s).startsNone.trans (onXu_startsNone _ _)
    · exact (onXu_startsNone _ s).trans (offerPending_startsNone _)
  · exact onXu_startsNone _ s

theorem takeCapability_startsNone (s : State) : StartsNone s (takeCapability s) := by
  unfold takeCapability
  split
  next w _ =>
    have active : StartsNone s ((s.land w).onXu fun x => { x with area := .active, enabling := .none }) :=
      (land_startsNone w s).trans (onXu_startsNone _ _)
    exact active.trans <| (offerPending_startsNone _).trans <|
      (evaluateAttn_keeps _).startsNone.trans (askScan_keeps (p := exchangeOnly) _ _).startsNone
  · exact (land_startsNone _ s).trans (onXu_startsNone _ _)
  · exact .refl s

theorem scanOn_startsNone {f : State → State} (k : StartsNone s (f s)) : StartsNone s (scanOn f s) := by
  unfold scanOn
  split
  · exact endScan_startsNone s
  · exact k

theorem scanTo_startsNone (x : ScanPhase) (s : State) : StartsNone s (scanTo x s) := onXu_startsNone _ s

theorem headerScanned_startsNone (bytes : List Byte) (s : State) : StartsNone s (headerScanned bytes s) := by
  unfold headerScanned takeScanHeader
  exact (onXu_startsNone _ s).trans <| (evaluateAttn_keeps _).startsNone.trans (scanTo_startsNone _ _)

theorem deliverTiming_press (x : TimingPart) (c : CycleTimer) : (deliverTiming x c).press = c.press := by
  unfold deliverTiming
  split <;> rfl

/-- A programme's delivery leaves the press state, the channels and the tester (R18, R157). -/
theorem takePage_startsNone (page : List Byte) (s : State) : StartsNone s (takePage page s) := by
  have delivered (x : Programme) : StartsNone s (deliverProgramme x s) :=
    ⟨fun _ => id, fun e => (deliverTiming_press x.timing s.timer).trans e, rfl⟩
  unfold takePage
  dsimp only
  exact (delivered _).trans <| (accrue_keeps (p := exchangeOnly) _ _).startsNone.trans <| (onXu_startsNone _ _).trans <|
    (useFree_keeps (p := exchangeOnly) _).startsNone.trans (scanTo_startsNone _ _)

theorem echoDone_startsNone (s : State) : StartsNone s (echoDone s) := by
  unfold echoDone
  split
  next w _ => exact (land_startsNone w s).trans (scanOn_startsNone (scanTo_startsNone _ _))
  · exact .refl s

theorem cellTaken_startsNone (k : CellNo) (s : State) : StartsNone s (cellTaken k s) := by
  unfold cellTaken
  exact (onXu_startsNone _ s).trans <| (putCell_keeps (p := exchangeOnly) _ _ _).startsNone.trans (scanTo_startsNone _ _)

theorem takeDone_startsNone (found : Word) (s : State) : StartsNone s (takeDone found s) := by
  unfold takeDone
  split
  next k _ =>
    split
    · exact (land_startsNone _ s).trans (scanOn_startsNone (cellTaken_startsNone k _))
    · refine scanOn_startsNone (.trans ?_ (treatBoard_keeps _ _).startsNone)
      split
      · exact (putCell_keeps (p := exchangeOnly) _ _ s).startsNone
      · exact .refl s
  · exact .refl s

theorem writeAccepted_startsNone (s : State) : StartsNone s (writeAccepted s) := by
  unfold writeAccepted
  split
  · exact .refl s
  next w _ =>
    refine (land_startsNone w s).trans ?_
    split
    · exact jobDone_startsNone _ _
    · exact onXu_startsNone _ _

theorem resultSettled_startsNone (found : Word) (s : State) : StartsNone s (resultSettled found s) := by
  unfold resultSettled
  split
  · exact .refl s
  · split
    · refine .trans ?_ ((settleEntry_keeps (p := exchangeOnly) _ _ _ _).startsNone.trans (jobDone_startsNone _ _))
      split
      · exact land_startsNone _ s
      · exact .refl s
    · exact .refl s

/-! ## Orders (R100, R102, R110, R118, R132) -/

/-- An order's run keeps the law if its owner does. -/
theorem runOrder_pulseOk (head : OrderHead) {owner : OrderRef → State → State} (k : ∀ o u, PulseOk u → PulseOk (owner o u))
    (h : PulseOk s) : PulseOk (runOrder head owner s) := by
  unfold runOrder
  split
  · split
    · exact (endScan_startsNone s).pulseOk h
    · exact (treatBoard_keeps _ _).startsNone.pulseOk (k _ (s.putCell _ _) h)
  · exact h

theorem takeClear_startsNone (zone : Nat) (o : OrderRef) (s : State) : StartsNone s (takeClear zone o s) := by
  unfold takeClear
  split
  · exact giveResult_startsNone o _ s
  · exact (clearZones_keeps zone s).startsNone.trans <|
      (giveResult_startsNone o _ _).trans (requestMirror_keeps (p := exchangeOnly) _).startsNone

theorem takeRelease_startsNone (o : OrderRef) (s : State) : StartsNone s (takeRelease o s) :=
  (onEvid_keeps _ s).startsNone.trans (giveResult_startsNone o _ _)

/-! ## Resets and the tick (R179) -/

theorem resetBlocks_nonePulsing (s : State) : NonePulsing (resetBlocks s) := fun c e => by
  have off : ((resetBlocks s).channel c).state = .off := congrArg Channel.state (Vector.getElem_replicate c.isLt)
  rw [off] at e
  exact ChannelState.noConfusion e

/-- A tick moves the timers of the channels, the press and the tests, and none of their states. -/
theorem ageBlocks_startsNone (s : State) : StartsNone s (ageBlocks s) where
  states c e := by rwa [ageBlocks_channel] at e
  press := id
  head := by
    cases tester : s.tester <;> simp [ageBlocks, tester, Test.attempting]

theorem tick_pulseOk (h : PulseOk s) : PulseOk (tick s) := by
  have aged : PulseOk (ageState s) := by
    unfold ageState
    dsimp only
    split
    · exact h
    · exact (ageBlocks_startsNone (s.onBoard Board.aged)).pulseOk h
  exact aged

theorem execSupplyReturnDelayExpiry_pulseOk (h : PulseOk s) : Ensures PulseOk (execSupplyReturnDelayExpiry s) := by
  refine ensures_next ?_
  dsimp only
  split
  · split <;> exact h
  · exact h

theorem execResetEnd_pulseOk (pin : ResetPin) (h : PulseOk s) : Ensures PulseOk (execResetEnd pin s) := by
  refine ensures_next ?_
  dsimp only
  split
  · exact h
  · split <;> exact h

theorem execSuppliesReturnWithinRange_pulseOk (h : PulseOk s) : Ensures PulseOk (execSuppliesReturnWithinRange s) := by
  refine ensures_next ?_
  split <;> exact h

theorem execResetTaken_pulseOk (h : PulseOk s) : Ensures PulseOk (execResetTaken s) := by
  refine ensures_next ?_
  split
  · exact NonePulsing.pulseOk (resetBlocks_nonePulsing s)
  · exact h

/-! ## Every command -/

theorem ensures_of_startsNone {due : State → Bool} {f : State → State} (h : PulseOk s) (k : StartsNone s (f s)) :
    Ensures PulseOk (respond due f s) := ensures_respond h fun _ => k.pulseOk h

/-- Every command keeps the law of R144. -/
theorem exec_pulseOk (i : Instr) (h : PulseOk s) : Ensures PulseOk (exec i s) := by
  unfold exec
  cases i with
  | supplyOutOfRange => exact ensures_next (NonePulsing.pulseOk (resetBlocks_nonePulsing s))
  | suppliesReturnWithinRange => exact execSuppliesReturnWithinRange_pulseOk h
  | supplyReturnDelayExpiry => exact execSupplyReturnDelayExpiry_pulseOk h
  | resetTaken => exact execResetTaken_pulseOk h
  | resetEnd pin => exact execResetEnd_pulseOk pin h
  | rstLow pin | functionLevelReset | lineRawChange line mv => exact ensures_next h
  | lineFilterExpiry line => exact ensures_respond h fun _ => deliverEdge_pulseOk (s := s.putLine _ _) line _ h
  | windowOpen w | windowClose w | clockWrap => exact ensures_of_startsNone h (onTimer_startsNone s fun _ => id)
  | lampBlinkToggle | enableHeaderReadStart => exact ensures_respond h fun _ => h
  | stall => exact ensures_respond h fun _ => takeStall_pulseOk h
  | hitStart c a => exact ensures_of_startsNone h (startHit_startsNone c _ a s)
  | hitCrossing c a => exact ensures_of_startsNone h (onChannel_startsNone c s fun _ => id)
  | hdtExpiry c => exact ensures_respond h fun _ => endOpenHit_pulseOk c false h
  | maxDurationExpiry c => exact ensures_respond h fun _ => endOpenHit_pulseOk c true h
  | lockoutExpiry c => exact ensures_of_startsNone h (onChannel_startsNone c s fun _ => id)
  | settleExpiry c ua => exact ensures_respond h fun _ => settleChannel_pulseOk c ua h
  | biasOverload c => exact ensures_respond h fun _ => overload_pulseOk c h
  | routeEnd c => exact ensures_of_startsNone h (clearRoute_startsNone c s)
  | eventDeadline serial => exact ensures_of_startsNone h (takeDeadline_keeps serial s).startsNone
  | mountTimerExpiry => exact ensures_respond h fun _ => mountTimeout_pulseOk h
  | attemptEndTick => exact ensures_respond h fun _ => takeEndTick_pulseOk h
  | restExpiry => exact ensures_respond h fun due => takeRest_pulseOk due h
  | registerWrite r v => exact ensures_of_startsNone h (writeRegister_startsNone r v s)
  | enable => exact ensures_of_startsNone h (setEnable_keeps s).startsNone
  | enableHeaderReadDone bytes => exact ensures_of_startsNone h (takeHeader_startsNone bytes s)
  | capabilityWriteDone => exact ensures_of_startsNone h (takeCapability_startsNone s)
  | disable => exact ensures_of_startsNone h (clearEnable_startsNone s)
  | look => exact ensures_of_startsNone h (lookNow_keeps (p := exchangeOnly) s).startsNone
  | scanHeaderReadDone bytes => exact ensures_of_startsNone h (scanOn_startsNone (headerScanned_startsNone bytes s))
  | programmeReadDone bytes => exact ensures_of_startsNone h (scanOn_startsNone (takePage_startsNone bytes s))
  | echoWriteDone => exact ensures_of_startsNone h (echoDone_startsNone s)
  | boardReadDone bytes =>
    exact ensures_of_startsNone h (scanOn_startsNone ((onXu_startsNone _ s).trans (treatBoard_keeps allCells _).startsNone))
  | cellTakeCasDone found => exact ensures_of_startsNone h (takeDone_startsNone found s)
  | mount notify tag offset fresh =>
    exact ensures_respond h fun _ => runOrder_pulseOk _ (fun o u => (takeMount_keeps o offset fresh u).startsNone.pulseOk) h
  | dismount notify tag => exact ensures_respond h fun _ => runOrder_pulseOk _ (fun o _ => takeDismount_pulseOk o) h
  | testSensor notify tag source amplitude level attempts delay apply =>
    exact ensures_respond h fun _ => runOrder_pulseOk _ (fun o _ => takeTest_pulseOk _ o) h
  | clearZone notify tag zone =>
    exact ensures_respond h fun _ => runOrder_pulseOk _ (fun o u => (takeClear_startsNone zone o u).pulseOk) h
  | releaseStop notify tag => exact ensures_respond h fun _ => runOrder_pulseOk _ (fun o u => (takeRelease_startsNone o u).pulseOk) h
  | badKind notify tag kind =>
    exact ensures_respond h fun _ => runOrder_pulseOk _ (fun o u => (giveResult_startsNone o .badKind u).pulseOk) h
  | mountFixedReadDone bytes => exact ensures_of_startsNone h (takeRead_startsNone (takeFixed_startsNone _ s))
  | mountDescriptionReadDone bytes =>
    refine ensures_of_startsNone h (takeRead_startsNone ?_)
    split
    · exact .refl s
    · exact takeDescription_startsNone _ s
  | mountContextReadDone bytes =>
    refine ensures_of_startsNone h (takeRead_startsNone ?_)
    split
    · exact .refl s
    · exact takeContext_startsNone _ s
  | jobWriteAccepted => exact ensures_of_startsNone h (writeAccepted_startsNone s)
  | resultStateCasDone found => exact ensures_of_startsNone h (resultSettled_startsNone found s)
  | busError unit => exact ensures_of_startsNone h (busErrorOf_startsNone unit s)

theorem step_pulseOk (h : PulseOk s) (stepped : step s = .next t) : PulseOk t := by
  unfold step at stepped
  split at stepped
  · exact ensures_next (P := PulseOk) (tick_pulseOk h) t stepped
  next i rest _ => exact exec_pulseOk (s := { s with pending := rest }) i h t stepped

/-- Under the law two PULSING channels are both the head's source. -/
theorem PulseOk.unique (h : PulseOk s) {c d : ChannelNo} (hc : (s.channel c).state = .pulsing)
    (hd : (s.channel d).state = .pulsing) : c = d :=
  Option.some.inj ((h.onlySource c hc).symm.trans (h.onlySource d hd))

/-- Settles O58: every step keeps the law, and a queue has one head, so at most one channel is PULSING. -/
theorem pulseLaw : Obligations.PulseLaw := by
  intro s t h stepped
  have kept := step_pulseOk h stepped
  exact ⟨kept, fun _ _ => kept.unique⟩

end Sys2Proof.Machine
end

section
/-! PROOF. What every command leaves in order (R131, R149 to R152, R162, R166; log entries 2, 4 and 7): it answers a next state, the
waiting commands and the variant stand, and the laws of the memory, of the two queues and of the area state are kept. -/

namespace Sys2Proof.Machine

open Sys2Proof

variable {p : Parts} {s t u : State}

/-! ## The relation -/

/-- What an operation leaves in order: the waiting commands, the variant, the memory's form, both queues' bounds, and the law of the
area state. -/
structure Orderly (s t : State) : Prop where
  pending : t.pending = s.pending
  variant : t.variant = s.variant
  memory : areaWf s.area = true → areaWf t.area = true
  jobs : QueueOk s → QueueOk t
  tests : TestsOk s → TestsOk t
  area : AreaOk s.xu → AreaOk t.xu

theorem Orderly.refl (s : State) : Orderly s s := ⟨rfl, rfl, id, id, id, id⟩

theorem Orderly.trans (h : Orderly s t) (k : Orderly t u) : Orderly s u :=
  ⟨k.pending.trans h.pending, k.variant.trans h.variant, k.memory ∘ h.memory, k.jobs ∘ h.jobs, k.tests ∘ h.tests, k.area ∘ h.area⟩

theorem Orderly.foldl {α : Type} (f : State → α → State) (h : ∀ s x, Orderly s (f s x)) (xs : List α) (s : State) :
    Orderly s (xs.foldl f s) := by
  induction xs generalizing s with
  | nil => exact .refl s
  | cons x xs ih => exact (h s x).trans (ih _)

/-- The law of the area state reads only what `UnitSame` says stands. -/
theorem UnitSame.areaOk {x y : Exchange} (k : UnitSame x y) (h : AreaOk x) : AreaOk y := by
  unfold AreaOk
  rw [k.attn, k.area, k.en, k.enabling]
  exact h

/-- An operation that may change the exchange unit's own state is orderly if it keeps the law of the area state. -/
theorem Keeps.orderlyOf (k : Keeps p s t) (h : AreaOk s.xu → AreaOk t.xu) : Orderly s t :=
  ⟨k.pending, k.variant, fun e => k.area ▸ e, k.queue, k.tests, h⟩

/-- What leaves the exchange unit's own state is orderly. -/
theorem Keeps.orderly (k : Keeps p s t) (w : p.unit = false := by rfl) : Orderly s t := k.orderlyOf (k.unit w).areaOk

theorem land_orderly (w : BusWrite) (s : State) : Orderly s (s.land w) := ⟨rfl, rfl, areaWf_land w s, id, id, id⟩

/-- The exchange unit changed, its queue made no longer and the law of the area state kept. -/
theorem onXu_orderly (f : Exchange → Exchange) (s : State) (hq : (f s.xu).queue.length ≤ s.xu.queue.length)
    (ha : AreaOk s.xu → AreaOk (f s.xu)) : Orderly s (s.onXu f) := (onUnit_keeps f s hq).orderlyOf ha

/-- Attention is evaluated true only while ACTIVE (R166). -/
theorem attnLevel_active {x : Exchange} (h : attnLevel x = true) : x.area = .active := by
  unfold attnLevel at h
  exact of_decide_eq_true (Bool.and_eq_true_iff.1 h).1

theorem evaluateAttn_orderly (s : State) : Orderly s (evaluateAttn s) :=
  onXu_orderly _ s (Nat.le_refl _) fun ⟨_, active, enabling⟩ => ⟨attnLevel_active (x := s.xu), active, enabling⟩

/-! ## Job ends (R160 to R163) -/

theorem popJob_orderly (s : State) : Orderly s (popJob s) := onXu_orderly _ s (by simp) id

theorem noteWritten_orderly (b : JobBody) (s : State) : Orderly s (noteWritten b s) :=
  (noteWritten_keeps b s).orderlyOf fun h => by
    unfold noteWritten
    split
    · split <;> exact h
    · split <;> exact h
    · exact h

theorem attnAfterJob_orderly (b : JobBody) (s : State) : Orderly s (attnAfterJob b s) := by
  cases b with
  | cycle | condition | located | result => exact evaluateAttn_orderly s
  | mirror | save => exact .refl s

theorem jobDone_orderly (b : JobBody) (s : State) : Orderly s (jobDone b s) :=
  (popJob_orderly s).trans <| (noteWritten_orderly b _).trans <| (attnAfterJob_orderly b _).trans <|
    (placeWaiting_keeps (p := exchangeOnly) _).orderly.trans <| (reportSave_keeps b true _).orderly.trans <|
      (offerPending_keeps _).orderly.trans (issueNext_keeps (p := exchangeOnly) _).orderly

theorem jobFailed_orderly (s : State) : Orderly s (jobFailed s) := by
  unfold jobFailed
  split
  · exact .refl s
  · refine (popJob_orderly s).trans ?_
    dsimp only
    split
    · exact (settleEntry_keeps (p := exchangeOnly) _ _ _ _).orderly
    · exact (saveEnded_keeps _ _ _).orderly
    · exact .refl _

theorem writeAccepted_orderly (s : State) : Orderly s (writeAccepted s) := by
  unfold writeAccepted
  split
  · exact .refl s
  next w _ =>
    refine (land_orderly w s).trans ?_
    split
    · exact jobDone_orderly _ _
    · exact onXu_orderly _ _ (Nat.le_refl _) id

theorem resultSettled_orderly (found : Word) (s : State) : Orderly s (resultSettled found s) := by
  unfold resultSettled
  split
  · exact .refl s
  · split
    · refine .trans ?_ ((settleEntry_keeps (p := exchangeOnly) _ _ _ _).orderly.trans (jobDone_orderly _ _))
      split
      · exact land_orderly _ s
      · exact .refl s
    · exact .refl s

/-! ## Scans and orders (R153 to R158) -/

theorem endScan_orderly (s : State) : Orderly s (endScan s) := (endScan_keeps (p := exchangeOnly) s).orderly

theorem scanTo_orderly (x : ScanPhase) (s : State) : Orderly s (scanTo x s) := (scanTo_keeps (p := exchangeOnly) x s).orderly

theorem putCell_orderly (k : CellNo) (e : CellEntry) (s : State) : Orderly s (s.putCell k e) :=
  (putCell_keeps (p := exchangeOnly) k e s).orderly

theorem giveResult_orderly (o : OrderRef) (r : OrderResult) (s : State) : Orderly s (giveResult o r s) :=
  (giveResult_keeps (p := exchangeOnly) o r s).orderly

/-- Cells treated leave the exchange unit's own state, but for the attention level that is evaluated after them. -/
theorem treatBoard_orderly (ks : List CellNo) (s : State) : Orderly s (treatBoard ks s) :=
  (treatCells_keeps (p := exchangeOnly) ks s).orderly.trans (evaluateAttn_orderly _)

/-- A scan's next operation is orderly if it is on a scan that goes on. -/
theorem scanOn_orderly {f : State → State} (h : Orderly s (f s)) : Orderly s (scanOn f s) := by
  unfold scanOn
  split
  · exact endScan_orderly s
  · exact h

theorem headerScanned_orderly (bytes : List Byte) (s : State) : Orderly s (headerScanned bytes s) :=
  (onXu_orderly _ s (Nat.le_refl _) id).trans <| (evaluateAttn_orderly _).trans (scanTo_orderly _ _)

theorem echoDone_orderly (s : State) : Orderly s (echoDone s) := by
  unfold echoDone
  split
  · exact (land_orderly _ s).trans (scanOn_orderly (scanTo_orderly _ _))
  · exact .refl s

theorem boardRead_orderly (bytes : List Byte) (s : State) : Orderly s (boardRead bytes s) :=
  (onXu_orderly _ s (Nat.le_refl _) id).trans (treatBoard_orderly _ _)

theorem cellTaken_orderly (k : CellNo) (s : State) : Orderly s (cellTaken k s) :=
  (onXu_orderly _ s (Nat.le_refl _) id).trans <| (putCell_orderly k _ _).trans (scanTo_orderly _ _)

theorem cellLeft_orderly (k : CellNo) (found : Word) (s : State) : Orderly s (cellLeft k found s) := by
  unfold cellLeft
  refine .trans ?_ (treatBoard_orderly _ _)
  split
  · exact putCell_orderly _ _ s
  · exact .refl s

theorem takeDone_orderly (found : Word) (s : State) : Orderly s (takeDone found s) := by
  unfold takeDone
  split
  · split
    · exact (land_orderly _ s).trans (scanOn_orderly (cellTaken_orderly _ _))
    · exact scanOn_orderly (cellLeft_orderly _ found s)
  · exact .refl s

/-- An order's run is orderly if its owner is. -/
theorem runOrder_orderly (head : OrderHead) {owner : OrderRef → State → State} (k : ∀ o u, Orderly u (owner o u)) (s : State) :
    Orderly s (runOrder head owner s) := by
  unfold runOrder
  split
  · split
    · exact endScan_orderly s
    · exact (putCell_orderly _ _ s).trans <| (k _ _).trans (treatBoard_orderly _ _)
  · exact .refl s

/-- A TEST_SENSOR that is not refused finds room in the test queue (Table 40). -/
theorem testRoom_of_notRefused {a : TestArgs} (h : testRefusal a s = none) : s.tester.length < testCapacity := by
  unfold testRefusal at h
  iterate 7 split at h; · cases h
  split at h
  · cases h
  next room => exact Nat.lt_of_not_le room

/-- A test joins a queue with room. -/
theorem joinQueue_orderly (x : Test) (room : s.tester.length < testCapacity) : Orderly s (joinQueue x s) := by
  have joined : Orderly s { s with tester := s.tester ++ [x] } :=
    ⟨rfl, rfl, id, id, fun _ => by simpa [TestsOk] using room, id⟩
  unfold joinQueue
  dsimp only
  split
  · exact joined.trans (judgeQueue_keeps _).orderly
  · exact joined

theorem takeTest_orderly (a : TestArgs) (o : OrderRef) (s : State) : Orderly s (takeTest a o s) := by
  unfold takeTest
  split
  · exact giveResult_orderly o _ s
  · split
    · exact giveResult_orderly o _ s
    next accepted => exact joinQueue_orderly _ (testRoom_of_notRefused accepted)

theorem takeClear_orderly (zone : Nat) (o : OrderRef) (s : State) : Orderly s (takeClear zone o s) := by
  unfold takeClear
  split
  · exact giveResult_orderly o _ s
  · exact (clearZones_keeps zone s).orderly.trans <|
      (giveResult_orderly o _ _).trans (requestMirror_keeps (p := exchangeOnly) _).orderly

theorem takeRelease_orderly (o : OrderRef) (s : State) : Orderly s (takeRelease o s) :=
  (onEvid_keeps _ s).orderly.trans (giveResult_orderly o _ _)

/-! ## Enable and disable (R150, R151) -/

/-- EN is set in a state that is not ACTIVE, for ACTIVE goes with EN. -/
theorem setEnable_orderly (s : State) : Orderly s (setEnable s) := by
  unfold setEnable
  split
  · exact .refl s
  next off =>
    refine onXu_orderly _ s (Nat.le_refl _) fun ⟨attn, active, _⟩ => ⟨attn, fun a => ?_, fun _ => rfl⟩
    exact absurd (active a).1 off

theorem abandonEnable_orderly (s : State) : Orderly s (abandonEnable s) :=
  onXu_orderly _ s (Nat.le_refl _) fun ⟨attn, active, _⟩ => ⟨attn, fun a => ⟨(active a).1, rfl⟩, fun e => absurd rfl e⟩

theorem offerPending_orderly (s : State) : Orderly s (offerPending s) := (offerPending_keeps s).orderly

/-- EN cleared: an enable in progress is abandoned in a state that is not ACTIVE; otherwise the area is UNCONFIGURED. -/
theorem disableArea_orderly (s : State) : Orderly s (disableArea s) := by
  unfold disableArea
  split
  next enabling =>
    have key : AreaOk s.xu → AreaOk ((abandonEnable s).onXu fun x => { dropSequences x with en := false }).xu :=
      fun ⟨attn, active, _⟩ => ⟨attn, fun a => absurd (active a).2 enabling, fun e => absurd rfl e⟩
    exact ((abandonEnable_keeps s).trans (onUnit_keeps _ _ (Nat.le_refl _))).orderlyOf key
  next idle =>
    refine (onXu_orderly clearUnit s (clearUnit_queue _) fun _ => ⟨nofun, nofun, fun e => absurd e idle⟩).trans ?_
    exact (abandonScan_keeps (p := exchangeOnly) _).orderly.trans <| (reportDiscarded_keeps _ _).orderly.trans <|
      (cancelReading_keeps _).orderly.trans (offerPending_orderly _)

theorem clearEnable_orderly (s : State) : Orderly s (clearEnable s) := by
  unfold clearEnable
  split
  · exact disableArea_orderly s
  · exact .refl s

theorem writeRegister_orderly (r : Register) (v : Word) (s : State) : Orderly s (writeRegister r v s) := by
  cases r with
  | xbaseL | xbaseH =>
    simp only [writeRegister]
    split
    · exact .refl s
    · exact onXu_orderly _ s (Nat.le_refl _) id
  | xctl =>
    simp only [writeRegister]
    split
    · exact setEnable_orderly s
    · exact clearEnable_orderly s
  | xlook => exact (lookNow_keeps (p := exchangeOnly) s).orderly
  | xstat | xident => exact .refl s

/-- The wait of an enable ends with its header read. -/
theorem startHeaderRead_orderly (h : headerReadDue s = true) :
    Orderly s (s.onXu fun x => { x with enabling := .headerRead }) := by
  have waiting : s.xu.enabling = .waiting := by
    simp only [headerReadDue, Bool.and_eq_true, decide_eq_true_eq] at h
    exact h.1.1
  refine onXu_orderly _ s (Nat.le_refl _) fun ⟨attn, active, on⟩ => ⟨attn, fun a => ?_, fun _ => on (by simp [waiting])⟩
  exact absurd (active a).2 (by simp [waiting])

/-- The header of an enable is checked in a state that is not ACTIVE. -/
theorem checkHeader_orderly (bytes : List Byte) (h : s.xu.enabling = .headerRead) : Orderly s (checkHeader bytes s) := by
  have inactive : AreaOk s.xu → s.xu.area ≠ .active := fun ⟨_, active, _⟩ a => absurd (active a).2 (by simp [h])
  unfold checkHeader
  split
  · refine (onXu_orderly _ s (Nat.le_refl _) id).trans (onXu_orderly _ _ (Nat.le_refl _) fun ok => ?_)
    exact ⟨ok.1, fun a => absurd a (inactive ok), fun _ => ok.2.2 (by simp [h])⟩
  · refine .trans (t := s.onXu fun x => { x with area := .headerInvalid, checkCode := headerCode bytes, enabling := .none })
      (onXu_orderly _ s (Nat.le_refl _) fun ok => ?_) (offerPending_orderly _)
    exact ⟨fun a => absurd (ok.1 a) (inactive ok), nofun, fun e => absurd rfl e⟩

theorem takeHeader_orderly (bytes : List Byte) (s : State) : Orderly s (takeHeader bytes s) := by
  unfold takeHeader
  split
  next h => exact checkHeader_orderly bytes h
  · exact onXu_orderly _ s (Nat.le_refl _) id

/-- The area becomes ACTIVE at the end of an enable, for which EN is set. -/
theorem becomeActive_orderly {w : BusWrite} (h : s.xu.enabling = .capabilityWrite w) : Orderly s (becomeActive w s) := by
  have ready : AreaOk s.xu → s.xu.en = true := fun ⟨_, _, on⟩ => on (by simp [h])
  refine (land_orderly w s).trans ?_
  refine (onXu_orderly (fun x => { x with area := .active, enabling := .none }) _ (Nat.le_refl _) fun ok => ?_).trans ?_
  · exact ⟨fun _ => rfl, fun _ => ⟨ready ok, rfl⟩, fun e => absurd rfl e⟩
  · exact (offerPending_orderly _).trans <| (evaluateAttn_orderly _).trans (askScan_keeps (p := exchangeOnly) _ _).orderly

theorem takeCapability_orderly (s : State) : Orderly s (takeCapability s) := by
  unfold takeCapability
  split
  next h => exact becomeActive_orderly h
  · exact (land_orderly _ s).trans (onXu_orderly _ _ (Nat.le_refl _) id)
  · exact .refl s

/-! ## Bus errors (R152) -/

/-- AREA_FAULT is entered with no enable in progress and ATTN# released. -/
theorem areaFault_orderly (code : Nat) {own : State → State} (k : ∀ u, Orderly u (own u)) (s : State) :
    Orderly s (areaFault code own s) := by
  unfold areaFault
  split
  · refine (abandonEnable_orderly s).trans ?_
    refine (onXu_orderly (fun x => { x with area := .areaFault, checkCode := code, attn := false }) _ (Nat.le_refl _)
      fun _ => ⟨nofun, nofun, fun e => absurd rfl e⟩).trans ?_
    exact (abandonScan_keeps (p := exchangeOnly) _).orderly.trans <| (k _).trans <|
      (dropWaiting_keeps (p := exchangeOnly) _).orderly.trans <| (cancelReading_keeps _).orderly.trans (offerPending_orderly _)
  · exact k s

theorem busErrorOf_orderly (unit : BusUnit) (s : State) : Orderly s (busErrorOf unit s) := by
  have stray (u : State) : Orderly u (u.onXu fun x => { x with strayEnable := .none }) := onXu_orderly _ u (Nat.le_refl _) id
  cases unit with
  | enable =>
    simp only [busErrorOf, enableError]
    split
    · exact areaFault_orderly 8 stray s
    · exact areaFault_orderly 9 stray s
    · exact stray s
    · exact stray s
  | scan =>
    simp only [busErrorOf, scanError]
    split
    · exact .refl s
    · exact areaFault_orderly _ endScan_orderly s
  | mount =>
    simp only [busErrorOf, mountError]
    split
    · exact (onMould_keeps _ s).orderly.trans (areaFault_orderly 8 .refl _)
    · split
      · exact (onMould_keeps _ s).orderly.trans (areaFault_orderly 8 .refl _)
      · exact .refl s
  | job =>
    simp only [busErrorOf, jobError]
    split
    · split
      · exact areaFault_orderly 9 jobFailed_orderly s
      · exact .refl s
    · exact .refl s

/-! ## The mount's reads, resets and the lines (R111 to R114, R176, R179) -/

theorem takeRead_orderly {kind : MountRead} {f : State → State} (k : Orderly s (f s)) : Orderly s (takeRead kind f s) := by
  unfold takeRead
  split
  · exact k
  · exact (onMould_keeps _ s).orderly

/-- A reset empties both queues and leaves the area UNCONFIGURED. -/
theorem resetBlocks_orderly (s : State) : Orderly s (resetBlocks s) :=
  ⟨rfl, rfl, id, fun _ => Nat.zero_le _, fun _ => Nat.zero_le _, fun _ => ⟨nofun, nofun, fun e => absurd rfl e⟩⟩

/-- The laws read neither the board nor the lines. -/
theorem Orderly.putBoard (h : Orderly s t) (b : Board) (ls : LineInputs) : Orderly s { t with board := b, lines := ls } :=
  ⟨h.pending, h.variant, h.memory, h.jobs, h.tests, h.area⟩

theorem onBoard_orderly (f : Board → Board) (s : State) : Orderly s (s.onBoard f) := (Orderly.refl s).putBoard _ _

theorem startUp_orderly (s : State) : Orderly s (startUp s) := (Orderly.refl s).putBoard _ _

/-! ## Every command -/

/-- The command answers a next state and leaves in order what `Orderly` says. -/
def Completes (s : State) (a : Answer) : Prop := ∃ t, a = .next t ∧ Orderly s t

theorem Completes.next (h : Orderly s t) : Completes s (.next t) := ⟨t, rfl, h⟩

/-- A command completes if its effect is orderly where it is due. -/
theorem Completes.respond {due : State → Bool} {f : State → State} (h : due s = true → Orderly s (f s)) :
    Completes s (respond due f s) := by
  refine .next ?_
  split
  next runs => exact h (Bool.and_eq_true_iff.1 runs).2
  · exact .refl s

theorem execSupplyReturnDelayExpiry_completes (s : State) : Completes s (execSupplyReturnDelayExpiry s) := by
  refine .next ?_
  dsimp only
  split
  · refine .trans (onBoard_orderly (fun b => { b with supplyDelay := none, powerOn := false }) s) ?_
    split
    · exact .refl _
    · exact startUp_orderly _
  · exact .refl s

theorem execResetEnd_completes (pin : ResetPin) (s : State) : Completes s (execResetEnd pin s) := by
  refine .next ?_
  dsimp only
  refine .trans (onBoard_orderly (Board.raise pin) s) ?_
  split
  · exact .refl _
  · refine .trans (onBoard_orderly (fun b => { b with qualify := none, rstTaken := false }) _) ?_
    split
    · exact startUp_orderly _
    · exact .refl _

theorem execSuppliesReturnWithinRange_completes (s : State) : Completes s (execSuppliesReturnWithinRange s) := by
  refine .next ?_
  split
  · exact .refl s
  · exact onBoard_orderly _ s

theorem execResetTaken_completes (s : State) : Completes s (execResetTaken s) := by
  refine .next ?_
  split
  · exact (resetBlocks_orderly s).trans (onBoard_orderly _ _)
  · exact .refl s

/-- Every command completes. -/
theorem exec_completes (i : Instr) (s : State) : Completes s (exec i s) := by
  unfold exec
  cases i with
  | supplyOutOfRange => exact .next ((resetBlocks_orderly s).putBoard _ _)
  | suppliesReturnWithinRange => exact execSuppliesReturnWithinRange_completes s
  | supplyReturnDelayExpiry => exact execSupplyReturnDelayExpiry_completes s
  | rstLow pin => exact .next (onBoard_orderly _ s)
  | resetTaken => exact execResetTaken_completes s
  | resetEnd pin => exact execResetEnd_completes pin s
  | functionLevelReset => exact .next (.refl s)
  | lineRawChange line mv => exact .next ((Orderly.refl s).putBoard _ _)
  | lineFilterExpiry line =>
    exact .respond fun _ => .trans (t := s.putLine line _) ((Orderly.refl s).putBoard _ _) (deliverEdge_keeps line _ _).orderly
  | windowOpen w => exact .respond fun _ => (onTimer_keeps _ s).orderly
  | windowClose w => exact .respond fun _ => (onTimer_keeps _ s).orderly
  | clockWrap => exact .respond fun _ => (onTimer_keeps _ s).orderly
  | stall => exact .respond fun _ => (takeStall_keeps s).orderly
  | hitStart c a => exact .respond fun _ => (startHit_keeps c _ a s).orderly
  | hitCrossing c a => exact .respond fun _ => (onChannel_keeps c _ s (by exact fun _ h => h)).orderly
  | hdtExpiry c => exact .respond fun _ => (endOpenHit_keeps c false s).orderly
  | maxDurationExpiry c => exact .respond fun _ => (endOpenHit_keeps c true s).orderly
  | lockoutExpiry c => exact .respond fun _ => (onChannel_keeps c _ s (by exact fun _ h => h)).orderly
  | settleExpiry c ua => exact .respond fun _ => (settleChannel_keeps c ua s).orderly
  | biasOverload c => exact .respond fun _ => (overload_keeps c s).orderly
  | routeEnd c => exact .respond fun _ => (clearRoute_keeps c s).orderly
  | eventDeadline serial => exact .respond fun _ => (takeDeadline_keeps serial s).orderly
  | mountTimerExpiry => exact .respond fun _ => (mountTimeout_keeps s).orderly
  | attemptEndTick => exact .respond fun _ => (takeEndTick_keeps s).orderly
  | restExpiry => exact .respond fun _ => (takeRest_keeps s).orderly
  | lampBlinkToggle => exact .respond fun _ => (onEvid_keeps _ s).orderly
  | registerWrite r v => exact .respond fun _ => writeRegister_orderly r v s
  | enable => exact .respond fun _ => setEnable_orderly s
  | enableHeaderReadStart => exact .respond startHeaderRead_orderly
  | enableHeaderReadDone bytes => exact .respond fun _ => takeHeader_orderly bytes s
  | capabilityWriteDone => exact .respond fun _ => takeCapability_orderly s
  | disable => exact .respond fun _ => clearEnable_orderly s
  | look => exact .respond fun _ => (lookNow_keeps (p := exchangeOnly) s).orderly
  | scanHeaderReadDone bytes => exact .respond fun _ => scanOn_orderly (headerScanned_orderly bytes s)
  | programmeReadDone bytes => exact .respond fun _ => scanOn_orderly (takePage_keeps bytes s).orderly
  | echoWriteDone => exact .respond fun _ => echoDone_orderly s
  | boardReadDone bytes => exact .respond fun _ => scanOn_orderly (boardRead_orderly bytes s)
  | cellTakeCasDone found => exact .respond fun _ => takeDone_orderly found s
  | mount notify tag offset fresh =>
    exact .respond fun _ => runOrder_orderly _ (fun o u => (takeMount_keeps o offset fresh u).orderly) s
  | dismount notify tag => exact .respond fun _ => runOrder_orderly _ (fun o u => (takeDismount_keeps o u).orderly) s
  | testSensor notify tag source amplitude level attempts delay apply =>
    exact .respond fun _ => runOrder_orderly _ (takeTest_orderly _) s
  | clearZone notify tag zone => exact .respond fun _ => runOrder_orderly _ (takeClear_orderly zone) s
  | releaseStop notify tag => exact .respond fun _ => runOrder_orderly _ takeRelease_orderly s
  | badKind notify tag kind => exact .respond fun _ => runOrder_orderly _ (fun o => giveResult_orderly o .badKind) s
  | mountFixedReadDone bytes => exact .respond fun _ => takeRead_orderly (takeFixed_keeps _ s).orderly
  | mountDescriptionReadDone bytes =>
    refine .respond fun _ => takeRead_orderly ?_
    split
    · exact .refl s
    · exact (takeDescription_keeps _ s).orderly
  | mountContextReadDone bytes =>
    refine .respond fun _ => takeRead_orderly ?_
    split
    · exact .refl s
    · exact (takeContext_keeps _ s).orderly
  | jobWriteAccepted => exact .respond fun _ => writeAccepted_orderly s
  | resultStateCasDone found => exact .respond fun _ => resultSettled_orderly found s
  | busError unit => exact .respond fun _ => busErrorOf_orderly unit s

/-! ## Every step -/

theorem ageState_area (s : State) : (ageState s).area = s.area := by
  unfold ageState
  dsimp only
  split <;> rfl

theorem ageState_xu (s : State) : (ageState s).xu = s.xu := by
  unfold ageState
  dsimp only
  split <;> rfl

theorem ageState_tester_length (s : State) : (ageState s).tester.length = s.tester.length := by
  unfold ageState
  dsimp only
  split
  · rfl
  · exact List.length_map _

/-- A property of the memory, the exchange unit and the length of the test queue that every command keeps, every step keeps. -/
theorem step_ensures {P : State → Prop}
    (same : ∀ s t : State, t.area = s.area → t.xu = s.xu → t.tester.length = s.tester.length → P s → P t)
    (kept : ∀ s t : State, Orderly s t → P s → P t) (h : P s) (stepped : step s = .next t) : P t := by
  unfold step at stepped
  split at stepped
  · injection stepped with e
    exact e ▸ same s (tick s) (ageState_area s) (ageState_xu s) (ageState_tester_length s) h
  next i rest _ =>
    obtain ⟨u, e, orderly⟩ := exec_completes i { s with pending := rest }
    rw [e] at stepped
    injection stepped with e
    exact e ▸ kept _ u orderly (same s _ rfl rfl rfl h)

/-- Settles O2: no command refuses or faults, and what each does leaves the waiting commands and the variant. -/
theorem everyCommandCompletes : Obligations.EveryCommandCompletes := by
  intro i s
  obtain ⟨t, e, orderly⟩ := exec_completes i s
  exact ⟨t, e, orderly.pending, orderly.variant⟩

/-- Settles O55: bytes come into memory only by an accepted write, which keeps the canonical form. -/
theorem memoryStaysCanonical : Obligations.MemoryStaysCanonical := fun _ _ =>
  step_ensures (P := fun s => areaWf s.area = true) (fun _ _ area _ _ h => area ▸ h) fun _ _ k => k.memory

/-- Settles O59: a job is added and a test joins only where its queue has room. -/
theorem queueBounds : Obligations.QueueBounds := fun _ _ jobs tests stepped =>
  ⟨step_ensures (P := QueueOk) (fun _ _ _ xu _ h => by unfold QueueOk; rw [xu]; exact h) (fun _ _ k => k.jobs) jobs stepped,
   step_ensures (P := TestsOk) (fun _ _ _ _ len h => by unfold TestsOk; rw [len]; exact h) (fun _ _ k => k.tests) tests stepped⟩

/-- Settles O60: an enable is in progress only outside ACTIVE, and the attention level is true only in ACTIVE. -/
theorem areaStateLaw : Obligations.AreaStateLaw := fun _ _ =>
  step_ensures (P := fun s => AreaOk s.xu) (fun _ _ _ xu _ h => xu ▸ h) fun _ _ k => k.area

end Sys2Proof.Machine
end

section
/-! PROOF. The verdicts and the stop latch over a step (R93 to R95, R98, R100, R177): a CRACKED verdict stands, and the latch rises only
at a close where a zone changes into CRACKED. -/

namespace Sys2Proof.Machine

open Sys2Proof

variable {p : Parts} {s t u : State}

/-! ## The verdict changes of a close (R95) -/

/-- The verdict change of zone `i` between two zone lists, counted from zone `n` on. -/
def changeAt (n : Nat) (as bs : List ZoneEntry) (i : Nat) : Option VerdictChange :=
  match as[i]?, bs[i]? with
  | some a, some b =>
    if a.verdict = b.verdict then none else some { zone := n + i, label := a.label, old := a.verdict, new := b.verdict }
  | _, _ => none

theorem changeAt_succ (n : Nat) (a b : ZoneEntry) (as bs : List ZoneEntry) (i : Nat) :
    changeAt n (a :: as) (b :: bs) (i + 1) = changeAt (n + 1) as bs i := by
  simp only [changeAt, List.getElem?_cons_succ, Nat.add_comm 1 i, Nat.add_assoc]

/-- The changes of a close, zone by zone. -/
theorem changesFrom_eq (n : Nat) (as bs : List ZoneEntry) :
    changesFrom n as bs = (List.range as.length).filterMap (changeAt n as bs) := by
  induction as generalizing n bs with
  | nil => rfl
  | cons a as ih =>
    cases bs with
    | nil =>
      have none_ (i : Nat) : changeAt n (a :: as) [] i = none := by unfold changeAt; split <;> simp_all
      simp [changesFrom, none_]
    | cons b bs =>
      rw [List.length_cons, List.range_succ_eq_map, List.filterMap_cons, List.filterMap_map]
      have rest : changeAt n (a :: as) (b :: bs) ∘ Nat.succ = changeAt (n + 1) as bs := funext (changeAt_succ n a b as bs)
      have first : changeAt n (a :: as) (b :: bs) 0 =
          if a.verdict = b.verdict then none else some { zone := n, label := a.label, old := a.verdict, new := b.verdict } := rfl
      rw [rest, first, ← ih]
      simp only [changesFrom]
      split <;> rfl

/-- A change of a close is one of a zone's verdict. -/
theorem mem_changesFrom {n : Nat} {as bs : List ZoneEntry} {c : VerdictChange} (h : c ∈ changesFrom n as bs) :
    ∃ (i : Nat) (a b : ZoneEntry), as[i]? = some a ∧ bs[i]? = some b ∧ a.verdict ≠ b.verdict ∧ c.new = b.verdict := by
  rw [changesFrom_eq] at h
  obtain ⟨i, -, e⟩ := List.mem_filterMap.1 h
  unfold changeAt at e
  split at e
  next a b ha hb =>
    split at e
    · cases e
    next differ => exact ⟨i, a, b, ha, hb, differ, by injection e with e; exact e ▸ rfl⟩
  · cases e

/-! ## The zones at a close (R88, R93) -/

theorem zonesOf_evidenceClose (s : State) : zonesOf (evidenceClose s) = (zonesOf s).map (closeZone s) := by
  unfold zonesOf
  rw [show (evidenceClose s).evid.tables = s.evid.tables.map fun t => { t with zones := t.zones.map (closeZone s) } from rfl]
  cases s.evid.tables <;> rfl

theorem evidenceClose_latch (s : State) : (evidenceClose s).evid.stopLatch = (s.evid.stopLatch || latches s) := rfl

/-- A CRACKED zone is CRACKED after a close (R93). -/
theorem closeZone_cracked {z : ZoneEntry} (s : State) (h : z.verdict = .cracked) : (closeZone s z).verdict = .cracked := by
  unfold closeZone
  split
  · exact h
  · split
    · exact h
    · simp [ZoneEntry.updated, ZoneEntry.recorded, verdictAfter, h]

theorem evidenceClose_cracked {i : Nat} (h : CrackedAt s i) : CrackedAt (evidenceClose s) i := by
  obtain ⟨z, hz, hv⟩ := Option.map_eq_some_iff.1 h
  have : (zonesOf (evidenceClose s))[i]? = some (closeZone s z) := by simp [zonesOf_evidenceClose, hz]
  simp [CrackedAt, this, closeZone_cracked s hv]

/-- A close that latches changes a zone into CRACKED under stop-on-crack (R98). -/
theorem crack_of_latches (h : latches s = true) :
    s.evid.part.stopOnCrack = true ∧ ∃ i : Nat, ¬ CrackedAt s i ∧ CrackedAt (evidenceClose s) i := by
  obtain ⟨enabled, change⟩ := Bool.and_eq_true_iff.1 h
  obtain ⟨c, hc, cracked⟩ := List.any_eq_true.1 change
  obtain ⟨i, a, b, ha, hb, differ, new⟩ := mem_changesFrom hc
  have hb' : b.verdict = .cracked := new ▸ of_decide_eq_true cracked
  refine ⟨enabled, i, ?_, ?_⟩
  · simp [CrackedAt, ha, hb' ▸ differ]
  · simp [CrackedAt, zonesOf_evidenceClose, hb, hb']

/-- A CRACKED zone is one of a table that stands. -/
theorem tables_ne_none_of_cracked {i : Nat} (h : CrackedAt s i) : s.evid.tables ≠ none := fun e => by
  simp [CrackedAt, zonesOf, e] at h

/-! ## What leaves the verdicts and the latch standing -/

/-- The stop latch does not rise, discarded tables stay away, and a CRACKED verdict stands while the tables do. -/
structure Stands (s t : State) : Prop where
  latch : t.evid.stopLatch = true → s.evid.stopLatch = true
  gone : s.evid.tables = none → t.evid.tables = none
  cracked : ∀ i : Nat, CrackedAt s i → t.evid.tables = none ∨ CrackedAt t i

theorem Stands.refl (s : State) : Stands s s := ⟨id, id, fun _ => .inr⟩

theorem Stands.trans (h : Stands s t) (k : Stands t u) : Stands s u :=
  ⟨h.latch ∘ k.latch, k.gone ∘ h.gone, fun i e => (h.cracked i e).elim (.inl ∘ k.gone) (k.cracked i)⟩

/-- The latch and the tables are all that is read. -/
theorem Stands.of_same (hl : t.evid.stopLatch = s.evid.stopLatch) (ht : t.evid.tables = s.evid.tables) : Stands s t := by
  refine ⟨fun h => hl ▸ h, fun h => ht ▸ h, fun i h => .inr ?_⟩
  unfold CrackedAt zonesOf at h ⊢
  rw [ht]
  exact h

theorem Stands.of_evid (h : t.evid = s.evid) : Stands s t := .of_same (by rw [h]) (by rw [h])

/-- Blocks at their values after reset hold neither tables nor latch (Table 31). -/
theorem Stands.of_reset (h : t.evid = resetEvid) : Stands s t := by
  have gone : t.evid.tables = none := h ▸ rfl
  exact ⟨fun e => absurd e (by rw [h]; nofun), fun _ => gone, fun _ _ => .inl gone⟩

/-- What does not build, load, clear or close the zone table leaves the verdicts standing. -/
theorem Keeps.stands (k : Keeps p s t) (w : p.tables = false := by rfl) : Stands s t :=
  have z := k.zones w
  ⟨fun h => z.latch ▸ h, z.gone, z.cracked⟩

/-- What does not build, load, clear or close the zone table leaves the latch. -/
theorem Keeps.latch (k : Keeps p s t) (w : p.tables = false := by rfl) : t.evid.stopLatch = s.evid.stopLatch := (k.zones w).latch

/-! ## The cycle close (R4, R88, R98) -/

/-- The state whose zones a cycle close takes: the acoustic part of the close is over. -/
def closingState (s : State) : State := zeroTally (closeSound (releasePart s) (drawRelease s))

theorem closingState_keeps (s : State) : Keeps sounding s (closingState s) :=
  (drawRelease_keeps s).trans <| (closeSound_keeps _ _).trans ((zeroTally_keeps _).mono rfl)

/-- What follows the zones' close, up to the exchange unit's part. -/
theorem closedBlocks_keeps (s : State) :
    Keeps { front := true, mould := true, timer := true } (evidenceClose (closingState s)) (closedBlocks s) :=
  ((releaseIn_keeps _ _ _).mono rfl).trans <| ((mouldClose_keeps _).mono rfl).trans ((onTimer_keeps _ _).mono rfl)

/-- What follows the zones' close leaves the verdicts, but for tables that a save held back discards. -/
theorem cycleClose_after_keeps (s : State) :
    Keeps { front := true, mould := true, timer := true, evid := true } (evidenceClose (closingState s)) (cycleClose s) := by
  rw [cycleClose_stages]
  exact ((closedBlocks_keeps s).mono rfl).trans <| (exchangeClose_keeps _ _).trans ((offers_keeps _).mono rfl)

/-- A CRACKED zone stays CRACKED through a close, unless its table goes. -/
theorem cycleClose_cracked {i : Nat} (h : CrackedAt s i) : (cycleClose s).evid.tables = none ∨ CrackedAt (cycleClose s) i := by
  have after := (cycleClose_after_keeps s).stands
  rcases (closingState_keeps s).stands.cracked i h with gone | cracked
  · exact .inl (after.gone (by rw [show (evidenceClose (closingState s)).evid.tables = _ from congrArg (Option.map _) gone]; rfl))
  · exact after.cracked i (evidenceClose_cracked cracked)

/-- The latch rises at a close only where a zone changes into CRACKED under stop-on-crack. -/
theorem cycleClose_latch (h : s.evid.stopLatch = false) (k : (cycleClose s).evid.stopLatch = true) :
    s.evid.part.stopOnCrack = true ∧ ((cycleClose s).evid.tables = none ∨ ∃ i : Nat, ¬ CrackedAt s i ∧ CrackedAt (cycleClose s) i) := by
  have before := (closingState_keeps s).zones rfl
  have after := cycleClose_after_keeps s
  have latched : latches (closingState s) = true := by
    rwa [after.latch, evidenceClose_latch, before.latch, h, Bool.false_or] at k
  obtain ⟨enabled, i, sound, cracked⟩ := crack_of_latches latched
  refine ⟨before.part ▸ enabled, ?_⟩
  rcases after.stands.cracked i cracked with gone | stands
  · exact .inl gone
  · refine .inr ⟨i, fun was => ?_, stands⟩
    rcases before.cracked i was with gone | was
    · have none_ : (evidenceClose (closingState s)).evid.tables = none := congrArg (Option.map _) gone
      exact tables_ne_none_of_cracked cracked none_
    · exact sound was

/-! ## The other commands -/

theorem endScan_stands (s : State) : Stands s (endScan s) := (endScan_keeps (p := exchangeOnly) s).stands

theorem scanOn_stands {f : State → State} (h : Stands s (f s)) : Stands s (scanOn f s) := by
  unfold scanOn
  split
  · exact endScan_stands s
  · exact h

theorem takePage_evid (page : List Byte) (s : State) :
    (takePage page s).evid = { s.evid with part := (takeProgramme (effectiveProgramme s) page).evidence } := rfl

theorem takeCapability_stands (s : State) : Stands s (takeCapability s) := by
  unfold takeCapability
  split
  · exact .trans (t := s.land _) (.of_evid rfl) (becomeActive_keeps _ s).stands
  · exact .of_evid rfl
  · exact .refl s

theorem echoDone_stands (s : State) : Stands s (echoDone s) := by
  unfold echoDone
  split
  · exact .trans (t := s.land _) (.of_evid rfl) (scanOn_stands (.of_evid rfl))
  · exact .refl s

theorem cellLeft_stands (k : CellNo) (found : Word) (s : State) : Stands s (cellLeft k found s) := by
  unfold cellLeft
  refine .trans ?_ (treatBoard_keeps _ _).stands
  split
  · exact .of_evid rfl
  · exact .refl s

theorem takeDone_stands (found : Word) (s : State) : Stands s (takeDone found s) := by
  unfold takeDone
  split
  · split
    · exact .trans (t := putStateWord _ _ _ s) (.of_evid rfl) (scanOn_stands (.of_evid rfl))
    · exact scanOn_stands (cellLeft_stands _ found s)
  · exact .refl s

theorem writeAccepted_stands (s : State) : Stands s (writeAccepted s) := by
  unfold writeAccepted
  split
  · exact .refl s
  next w _ =>
    refine .trans (t := s.land w) (.of_evid rfl) ?_
    split
    · exact (jobDone_keeps _ _).stands
    · exact .of_evid rfl

theorem resultSettled_stands (found : Word) (s : State) : Stands s (resultSettled found s) := by
  unfold resultSettled
  split
  · exact .refl s
  · split
    · refine .trans ?_ ((settleEntry_keeps (p := exchangeOnly) _ _ _ _).stands.trans (jobDone_keeps _ _).stands)
      split <;> exact .of_evid rfl
    · exact .refl s

/-- An order's run leaves the verdicts standing if its owner does. -/
theorem runOrder_stands (head : OrderHead) {owner : OrderRef → State → State} (k : ∀ o u, Stands u (owner o u)) (s : State) :
    Stands s (runOrder head owner s) := by
  unfold runOrder
  split
  · split
    · exact endScan_stands s
    · exact .trans (t := s.putCell _ _) (.of_evid rfl) ((k _ _).trans (treatBoard_keeps _ _).stands)
  · exact .refl s

theorem giveResult_stands (o : OrderRef) (r : OrderResult) (s : State) : Stands s (giveResult o r s) :=
  (giveResult_keeps (p := exchangeOnly) o r s).stands

theorem takeTest_stands (a : TestArgs) (o : OrderRef) (s : State) : Stands s (takeTest a o s) := by
  unfold takeTest
  split
  · exact giveResult_stands o _ s
  · split
    · exact giveResult_stands o _ s
    · unfold joinQueue
      dsimp only
      split
      · exact .trans (t := { s with tester := s.tester ++ [newTest o a s] }) (.of_evid rfl) (judgeQueue_keeps _).stands
      · exact .of_evid rfl

/-- RELEASE_STOP lets the latch fall. -/
theorem takeRelease_stands (o : OrderRef) (s : State) : Stands s (takeRelease o s) := by
  refine .trans (t := releaseLatch s) ⟨nofun, id, fun _ => .inr⟩ (giveResult_stands o _ _)

theorem execSupplyReturnDelayExpiry_stands (s : State) : Ensures (Stands s) (execSupplyReturnDelayExpiry s) := by
  refine ensures_next ?_
  dsimp only
  split
  · split <;> exact .of_evid rfl
  · exact .refl s

theorem execResetEnd_stands (pin : ResetPin) (s : State) : Ensures (Stands s) (execResetEnd pin s) := by
  refine ensures_next ?_
  dsimp only
  split
  · exact .of_evid rfl
  · split <;> exact .of_evid rfl

theorem execSuppliesReturnWithinRange_stands (s : State) : Ensures (Stands s) (execSuppliesReturnWithinRange s) := by
  refine ensures_next ?_
  split <;> exact .of_evid rfl

theorem execResetTaken_stands (s : State) : Ensures (Stands s) (execResetTaken s) := by
  refine ensures_next ?_
  split
  · exact .of_reset rfl
  · exact .refl s

/-- Every line edge but that of CYC leaves the verdicts standing. -/
theorem deliverEdge_stands (l : Line) (h : l ≠ .cyc) (rising : Bool) (s : State) : Stands s (deliverEdge l rising s) := by
  have phase (x : PhaseLine) : Stands s (lineEdge x rising s) := by
    unfold lineEdge
    split <;> exact .of_evid rfl
  cases l with
  | cyc => exact absurd rfl h
  | feed => exact phase .feed
  | vib => exact phase .vib
  | tamp => exact phase .tamp
  | strip => exact phase .strip
  | mpres =>
    cases rising with
    | true => exact .refl s
    | false => exact (mouldPulled_keeps s).stands
  | clamp =>
    cases rising with
    | true => exact (clampLocks_keeps s).stands
    | false => exact (clampUnlocks_keeps s).stands

/-- The commands that can build, load, clear or close the zone table. -/
def touchesTable : Instr → Bool
  | .lineFilterExpiry .cyc | .clearZone _ _ _ | .mountDescriptionReadDone _ | .mountContextReadDone _ => true
  | _ => false

/-- Every other command leaves the verdicts and the latch standing. -/
theorem exec_stands (i : Instr) (h : touchesTable i = false) (s : State) : Ensures (Stands s) (exec i s) := by
  have same {due : State → Bool} {f : State → State} (k : Stands s (f s)) : Ensures (Stands s) (respond due f s) :=
    ensures_respond (.refl s) fun _ => k
  unfold exec
  cases i with
  | clearZone | mountDescriptionReadDone | mountContextReadDone => cases h
  | supplyOutOfRange => exact ensures_next (.of_reset rfl)
  | suppliesReturnWithinRange => exact execSuppliesReturnWithinRange_stands s
  | supplyReturnDelayExpiry => exact execSupplyReturnDelayExpiry_stands s
  | resetTaken => exact execResetTaken_stands s
  | resetEnd pin => exact execResetEnd_stands pin s
  | rstLow | functionLevelReset | lineRawChange => exact ensures_next (.of_evid rfl)
  | lineFilterExpiry line =>
    have other : line ≠ .cyc := by rintro rfl; cases h
    exact same (.trans (t := s.putLine line _) (.of_evid rfl) (deliverEdge_stands line other _ _))
  | windowOpen | windowClose | clockWrap | hitCrossing | lockoutExpiry | routeEnd | enableHeaderReadStart => exact same (.of_evid rfl)
  | lampBlinkToggle => exact same (.of_same rfl rfl)
  | stall => exact same (takeStall_keeps s).stands
  | hitStart c a => exact same (startHit_keeps c _ a s).stands
  | hdtExpiry c => exact same (endOpenHit_keeps c false s).stands
  | maxDurationExpiry c => exact same (endOpenHit_keeps c true s).stands
  | settleExpiry c ua => exact same (settleChannel_keeps c ua s).stands
  | biasOverload c => exact same (overload_keeps c s).stands
  | eventDeadline serial => exact same (takeDeadline_keeps serial s).stands
  | mountTimerExpiry => exact same (mountTimeout_keeps s).stands
  | attemptEndTick => exact same (takeEndTick_keeps s).stands
  | restExpiry => exact same (takeRest_keeps s).stands
  | registerWrite r v => exact same (writeRegister_keeps r v s).stands
  | enable => exact same (setEnable_keeps s).stands
  | enableHeaderReadDone bytes => exact same (takeHeader_keeps bytes s).stands
  | capabilityWriteDone => exact same (takeCapability_stands s)
  | disable => exact same (clearEnable_keeps s).stands
  | look => exact same (lookNow_keeps (p := exchangeOnly) s).stands
  | scanHeaderReadDone bytes => exact same (scanOn_stands (.of_evid rfl))
  | programmeReadDone bytes =>
    exact same (scanOn_stands (.of_same (by rw [takePage_evid]) (by rw [takePage_evid])))
  | echoWriteDone => exact same (echoDone_stands s)
  | boardReadDone bytes =>
    exact same (scanOn_stands (.trans (t := s.onXu _) (.of_evid rfl) (treatBoard_keeps allCells _).stands))
  | cellTakeCasDone found => exact same (takeDone_stands found s)
  | mount notify tag offset fresh => exact same (runOrder_stands _ (fun o u => (takeMount_keeps o offset fresh u).stands) s)
  | dismount notify tag => exact same (runOrder_stands _ (fun o u => (takeDismount_keeps o u).stands) s)
  | testSensor notify tag source amplitude level attempts delay apply => exact same (runOrder_stands _ (takeTest_stands _) s)
  | releaseStop notify tag => exact same (runOrder_stands _ takeRelease_stands s)
  | badKind notify tag kind => exact same (runOrder_stands _ (fun o => giveResult_stands o .badKind) s)
  | mountFixedReadDone bytes =>
    refine same ?_
    unfold takeRead
    split
    · exact (takeFixed_keeps _ s).stands
    · exact .of_evid rfl
  | jobWriteAccepted => exact same (writeAccepted_stands s)
  | resultStateCasDone found => exact same (resultSettled_stands found s)
  | busError unit => exact same (busErrorOf_keeps unit s).stands

/-! ## The latch where the table is built, loaded or cleared (R83, R84, R100) -/

theorem takeClear_latch (zone : Nat) (o : OrderRef) (s : State) : (takeClear zone o s).evid.stopLatch = s.evid.stopLatch := by
  unfold takeClear
  split
  · exact (giveResult_keeps (p := exchangeOnly) o _ s).latch
  · exact (requestMirror_keeps (p := exchangeOnly) _).latch.trans (giveResult_keeps (p := exchangeOnly) o .ok (clearZones zone s)).latch

theorem standTables_latch (d : Description) (s : State) : (standTables d s).evid.stopLatch = s.evid.stopLatch := rfl

theorem takeDescription_latch (d : Description) (s : State) : (takeDescription d s).evid.stopLatch = s.evid.stopLatch := by
  have adopted (u : State) : (adoptDescription d u).evid.stopLatch = u.evid.stopLatch := by
    unfold adoptDescription
    rw [standTables_latch, (setThresholds_keeps d.channels _).evid rfl]
    rfl
  unfold takeDescription
  dsimp only
  split
  · exact (endOrder_keeps _ _).latch
  · split
    · exact (enterClampWait_keeps _).latch.trans (adopted _)
    · exact adopted _

theorem takeContext_latch (c : ContextRead) (s : State) : (takeContext c s).evid.stopLatch = s.evid.stopLatch := by
  unfold takeContext
  dsimp only
  split <;> exact (enterClampWait_keeps _).latch

/-- An order's run leaves the latch if its owner does. -/
theorem runOrder_latch (head : OrderHead) {owner : OrderRef → State → State}
    (k : ∀ o u, (owner o u).evid.stopLatch = u.evid.stopLatch) (s : State) :
    (runOrder head owner s).evid.stopLatch = s.evid.stopLatch := by
  unfold runOrder
  split
  · split
    · exact (endScan_keeps (p := exchangeOnly) s).latch
    · exact (treatBoard_keeps _ _).latch.trans (k _ _)
  · rfl

/-- The latch does not rise at a command other than a CYC edge. -/
theorem exec_latch (i : Instr) (h : i ≠ .lineFilterExpiry .cyc) (s : State) :
    Ensures (fun t => t.evid.stopLatch = true → s.evid.stopLatch = true) (exec i s) := by
  have same {due : State → Bool} {f : State → State} (k : (f s).evid.stopLatch = s.evid.stopLatch) :
      Ensures (fun t => t.evid.stopLatch = true → s.evid.stopLatch = true) (respond due f s) :=
    ensures_respond id fun _ e => k ▸ e
  by_cases touches : touchesTable i = true
  · unfold touchesTable at touches
    split at touches
    · exact absurd rfl h
    next notify tag zone => exact same (runOrder_latch _ (takeClear_latch zone) s)
    next bytes =>
      refine same ?_
      unfold takeRead
      split
      · dsimp only
        split
        · rfl
        · exact takeDescription_latch _ s
      · rfl
    next bytes =>
      refine same ?_
      unfold takeRead
      split
      · dsimp only
        split
        · rfl
        · exact takeContext_latch _ s
      · rfl
    · cases touches
  · exact fun t e => (exec_stands i (by simpa using touches) s t e).latch

/-! ## Every step -/

theorem tick_stands (s : State) : Stands s (tick s) := by
  have aged : Stands s (ageState s) := by
    unfold ageState
    dsimp only
    split <;> exact .of_same rfl rfl
  exact aged.trans (.of_evid rfl)

/-- A record read that is no mount's own ends, and nothing else (log entry 17). -/
theorem takeRead_stands {kind : MountRead} {f : State → State} (h : s.mould.read ≠ kind) : Stands s (takeRead kind f s) := by
  rw [takeRead, if_neg h]
  exact .of_evid rfl

/-- With no mount's read on the bus, a CRACKED verdict stands through every command but CLEAR_ZONE. -/
theorem exec_cracked {j : Nat} (i : Instr) (clear : ∀ notify tag zone, i ≠ .clearZone notify tag zone) (read : s.mould.read = .none)
    (h : CrackedAt s j) : Ensures (fun t => t.evid.tables = none ∨ CrackedAt t j) (exec i s) := by
  by_cases touches : touchesTable i = true
  · unfold touchesTable at touches
    split at touches
    · refine ensures_respond (.inr h) fun _ => ?_
      unfold takeEdge deliverEdge cycEdge
      dsimp only
      split
      · exact cycleClose_cracked (s := s.putLine _ _) h
      · exact .inr h
    next notify tag zone => exact absurd rfl (clear notify tag zone)
    · exact ensures_respond (.inr h) fun _ => (takeRead_stands (by simp [read])).cracked j h
    · exact ensures_respond (.inr h) fun _ => (takeRead_stands (by simp [read])).cracked j h
    · cases touches
  · exact fun t e => (exec_stands i (by simpa using touches) s t e).cracked j h

/-- Settles O29: the tables that stand are closed, built, loaded or cleared by four commands only; a close keeps CRACKED (R93), the
two record reads of a mount are excluded, and so is CLEAR_ZONE. -/
theorem crackedVerdictStands : Obligations.CrackedVerdictStands := by
  intro j s t cracked read clear stepped
  unfold step at stepped
  split at stepped
  · injection stepped with e
    exact e ▸ (tick_stands s).cracked j cracked
  next i rest front =>
    refine exec_cracked (s := { s with pending := rest }) i (fun notify tag zone e => ?_) read cracked t stepped
    exact clear notify tag zone rest (front.trans (by rw [e]))

/-- A CYC edge raises the latch only where it is selected, at a close that changes a zone into CRACKED under stop-on-crack. -/
theorem cycEdge_latch {rising : Bool} (low : s.evid.stopLatch = false) (high : (cycEdge rising s).evid.stopLatch = true) :
    selects s.timer.installed.cycEdge rising = true ∧ s.evid.part.stopOnCrack = true
      ∧ ((cycEdge rising s).evid.tables = none ∨ ∃ i : Nat, ¬ CrackedAt s i ∧ CrackedAt (cycEdge rising s) i) := by
  by_cases selected : selects s.timer.installed.cycEdge rising = true
  · rw [cycEdge_of_selected selected] at high ⊢
    exact ⟨selected, cycleClose_latch low high⟩
  · rw [cycEdge_of_not_selected (by simpa using selected), low] at high
    cases high

/-- A LINE_FILTER_EXPIRY that changes anything comes while no reset holds the part. -/
theorem exec_lineFilterExpiry_cases (l : Line) (h : exec (.lineFilterExpiry l) s = .next t) :
    t = s ∨ (held s = false ∧ t = deliverEdge l (s.lines.at l).raw (filteredTo l s)) := by
  have answer : exec (.lineFilterExpiry l) s = .next (if !held s && filterDue l s then takeEdge l s else s) := rfl
  rw [answer] at h
  injection h with h
  split at h
  next runs => exact .inr ⟨by simpa using (Bool.and_eq_true_iff.1 runs).1, h.symm⟩
  · exact .inl h.symm

theorem exec_cyc_latch (h : exec (.lineFilterExpiry .cyc) s = .next t) (low : s.evid.stopLatch = false)
    (high : t.evid.stopLatch = true) :
    held s = false ∧ selects s.timer.installed.cycEdge s.lines.cyc.raw = true ∧ s.evid.part.stopOnCrack = true
      ∧ (t.evid.tables = none ∨ ∃ i : Nat, ¬ CrackedAt s i ∧ CrackedAt t i) := by
  rcases exec_lineFilterExpiry_cases .cyc h with rfl | ⟨live, rfl⟩
  · exact absurd high (by simp [low])
  · exact ⟨live, cycEdge_latch (s := filteredTo .cyc s) low high⟩

/-- Settles O30: no command but a CYC edge raises the latch, and a selected edge does so only at a close that changes a zone into
CRACKED under stop-on-crack. -/
theorem stopLatchRisesAtCrack : Obligations.StopLatchRisesAtCrack := by
  intro s t stepped low high
  unfold step at stepped
  split at stepped
  · injection stepped with e
    subst e
    exact absurd ((tick_stands s).latch high) (by simp [low])
  next i rest front =>
    by_cases e : i = .lineFilterExpiry .cyc
    · subst e
      exact ⟨⟨rest, front⟩, exec_cyc_latch (s := { s with pending := rest }) stepped low high⟩
    · exact absurd (exec_latch i e { s with pending := rest } t stepped high) (by simp [low])

end Sys2Proof.Machine
end

section
/-! PROOF. Steps, resets and the input stages (R7, R176, R179; log entries 1, 2, 13 and 14). -/

namespace Sys2Proof.Machine

open Sys2Proof

variable {s t : State}

/-! ## How a command answers (log entries 2 and 14) -/

/-- A command whose condition holds has its effect while no reset holds the part. -/
theorem respond_of_due {due : State → Bool} {f : State → State} (hh : held s = false) (hd : due s = true) :
    respond due f s = .next (f s) := by
  simp [respond, hh, hd]

/-- A command that can come at any time. -/
theorem respond_always {f : State → State} (hh : held s = false) : respond always f s = .next (f s) := respond_of_due hh rfl

/-- A command whose condition does not hold leaves the state as it stands. -/
theorem respond_of_not_due {due : State → Bool} {f : State → State} (hd : due s = false) : respond due f s = .next s := by
  simp [respond, hd]

/-- A timer runs out at 0. -/
theorem expired_iff {o : Option Nat} : expired o = true ↔ o = some 0 := decide_eq_true_iff

/-- Settles O1. -/
theorem stepRunsFrontCommand : Obligations.StepRunsFrontCommand := fun _ _ _ => rfl

/-! ## Blocks at their values after reset (R179) -/

theorem LineInputs.all_at (f : LineInput → LineInput) (ls : LineInputs) (l : Line) : (ls.all f).at l = f (ls.at l) := by
  cases l <;> rfl

theorem AtReset.channel (h : AtReset s) (c : ChannelNo) : s.channel c = resetChannel := by
  obtain ⟨-, front, -⟩ := h
  rw [State.channel, front]
  exact Vector.getElem_replicate c.isLt

/-- Blocks at their values after reset drive no pin. -/
theorem AtReset.pinsOff (h : AtReset s) : PinsOff s := by
  have channel := h.channel
  obtain ⟨-, -, -, evid, -, -, xu⟩ := h
  refine ⟨fun c => ?_, ?_, ?_, ?_⟩
  · simp [biasOn, channel c, resetChannel]
  · simp [stopreq, evid, resetEvid]
  · simp [lampOn, mouldVerdict, evid, resetEvid]
  · simp [attnAsserted, xu, resetXu]

theorem resetBlocks_atReset (s : State) : AtReset (resetBlocks s) := ⟨rfl, rfl, rfl, rfl, rfl, rfl, rfl⟩

/-- The blocks' values after reset say nothing of the board and the lines. -/
theorem AtReset.putBoard (h : AtReset s) (b : Board) (ls : LineInputs) : AtReset { s with board := b, lines := ls } := h

/-- With no earlier raw level, only a voltage in the high band gives a high one (R176). -/
theorem rawLevel_false (b : Band) : rawLevel false b = decide (b = .high) := by cases b <;> rfl

theorem exec_resetTaken_of_due (h : s.board.qualify = some 0) :
    exec .resetTaken s = .next ((resetBlocks s).onBoard fun b => { b with qualify := none, rstTaken := true }) :=
  congrArg _ (if_pos (expired_iff.2 h))

/-- Settles O4: both resets take `resetBlocks`, and say how the lines and the board stand beside it. -/
theorem resetTakesEveryBlock : Obligations.ResetTakesEveryBlock := by
  intro s
  refine ⟨?_, fun h => ?_, fun h => congrArg _ (if_neg fun e => h (expired_iff.1 e))⟩
  · have blocks := (resetBlocks_atReset s).putBoard { s.board with supplyOk := false, supplyDelay := none, powerOn := true }
      (s.lines.all LineInput.poweredOn)
    refine ⟨_, rfl, Bool.or_true _, blocks, blocks.pinsOff, rfl, fun l => ?_, rfl, rfl, rfl, rfl⟩
    have stage : (s.lines.all LineInput.poweredOn).at l = (s.lines.at l).poweredOn := LineInputs.all_at _ _ l
    exact ⟨(congrArg LineInput.raw stage).trans (rawLevel_false _), (congrArg LineInput.filtered stage).trans rfl, congrArg LineInput.timer stage⟩
  · have blocks := (resetBlocks_atReset s).putBoard { s.board with qualify := none, rstTaken := true } (s.lines.all LineInput.stopped)
    exact ⟨_, exec_resetTaken_of_due h, Bool.true_or _, blocks, blocks.pinsOff, rfl, fun l => LineInputs.all_at LineInput.stopped s.lines l, rfl,
      rfl, rfl, rfl⟩

/-! ## How resets start and end (R179) -/

/-- The board after a pin has risen. -/
def Board.raised (pin : ResetPin) (b : Board) : Board :=
  { b with rstLow := b.rstLow && decide (pin ≠ .rst), slotLow := b.slotLow && decide (pin ≠ .slot) }

theorem Board.raise_eq (pin : ResetPin) (b : Board) : b.raise pin = b.raised pin := by
  cases pin <;> simp [Board.raise, Board.raised]

theorem Board.lower_eq (pin : ResetPin) (b : Board) :
    b.lower pin = { b with rstLow := b.rstLow || decide (pin = .rst), slotLow := b.slotLow || decide (pin = .slot) } := by
  cases pin <;> simp [Board.lower]

/-- A pin is low after one has risen only if it is the other. -/
theorem pinLow_raise (pin : ResetPin) (b : Board) : pinLow (b.raise pin) = if pin = .rst then b.slotLow else b.rstLow := by
  cases pin <;> simp [pinLow, Board.raise]

/-- RESET_END with the other pin still low only lets this one rise. -/
theorem execResetEnd_of_pinLow (pin : ResetPin) (h : pinLow (s.board.raise pin) = true) :
    execResetEnd pin s = .next (s.onBoard (Board.raise pin)) :=
  congrArg _ (if_pos h)

/-- RESET_END with both pins high stops the qualification and ends a reset taken; the lines start unless the supplies still hold the
part. -/
theorem execResetEnd_of_pinsHigh (pin : ResetPin) (h : pinLow (s.board.raise pin) = false) :
    execResetEnd pin s =
      .next { s with
        board := { s.board with rstLow := false, slotLow := false, qualify := none, rstTaken := false }
        lines := if s.board.rstTaken = true ∧ s.board.powerOn = false then s.lines.all LineInput.started else s.lines } := by
  have board : { s.board.raise pin with qualify := none, rstTaken := false } =
      { s.board with rstLow := false, slotLow := false, qualify := none, rstTaken := false } := by
    cases pin <;> simp_all [pinLow, Board.raise]
  have on : ¬ pinLow (s.onBoard (Board.raise pin)).board = true := by simpa [State.onBoard] using h
  unfold execResetEnd
  dsimp only
  rw [if_neg on]
  simp only [State.onBoard, board, held, Bool.false_or, Bool.and_eq_true, Bool.not_eq_true']
  split <;> simp [startUp, *]

/-- Settles O5: the two commands of the supplies, and the two of the pins by whether a pin is low. -/
theorem resetsStartAndEnd : Obligations.ResetsStartAndEnd := by
  intro s
  refine ⟨fun h => ?_, fun h => ?_, fun pin h => ?_, fun pin h => ?_, fun pin h => ?_, fun pin h => ?_, rfl⟩
  · exact congrArg _ (if_neg (by simp [h]))
  · refine (congrArg _ (if_pos (expired_iff.2 h))).trans ?_
    simp only [held, State.onBoard, Bool.or_false]
    split <;> rfl
  · have high : s.board.rstLow = false ∧ s.board.slotLow = false := by simpa [pinLow] using h
    simp [exec, execRstLow, State.onBoard, h, Board.lower_eq, high, qualifyTicks, ticksPerMicrosecond]
  · simp [exec, execRstLow, State.onBoard, h, Board.lower_eq]
  · rw [← pinLow_raise] at h
    exact (execResetEnd_of_pinLow pin h).trans (by rw [State.onBoard, Board.raise_eq, Board.raised])
  · rw [← pinLow_raise] at h
    exact execResetEnd_of_pinsHigh pin h

/-! ## The values after reset (Tables 8 to 60) -/

theorem reset_atReset : AtReset State.reset := ⟨rfl, rfl, rfl, rfl, rfl, rfl, rfl⟩

theorem reset_channel (c : ChannelNo) : State.reset.channel c = resetChannel := reset_atReset.channel c

theorem reset_safe : Safe State.reset := by
  refine ⟨rfl, ⟨Nat.zero_le _, nofun⟩, ⟨nofun, fun c h => ?_⟩, nofun, Nat.zero_le _, Nat.zero_le _, fun c h => ?_, nofun, nofun,
    fun h => absurd rfl h⟩
  · exact absurd (congrArg Channel.base (reset_channel c)) h
  · rw [reset_channel c] at h
    cases h

theorem reset_readRegister (r : Register) : readRegister State.reset r = if r = .xident then 0x0110 else 0 := by
  cases r <;> rfl

/-- Settles O6: the state after reset is one fixed state, whose tables are read off. -/
theorem resetValues : Obligations.ResetValues := by
  refine ⟨reset_safe, ?_, ?_, rfl, rfl, fun c => Vector.getElem_replicate c.isLt, rfl, rfl, rfl, fun n => rfl, rfl, rfl, rfl, rfl, ?_, rfl,
    ?_, reset_readRegister⟩
  · rintro t rfl
    refine ⟨rfl, rfl, rfl, rfl, rfl, rfl, rfl, rfl, rfl, rfl, rfl, rfl, rfl, rfl, fun w => ⟨?_, ?_⟩⟩
    · exact congrArg Window.state (Vector.getElem_replicate w.isLt)
    · exact Vector.getElem_replicate w.isLt
  · rintro c x rfl
    rw [reset_channel c]
    exact ⟨rfl, reset_atReset.pinsOff.1 c, rfl, rfl, rfl, rfl, rfl, rfl⟩
  · rintro m rfl
    exact ⟨rfl, rfl, rfl, rfl, rfl, rfl, rfl, rfl, rfl, rfl, rfl, rfl, rfl, rfl, rfl⟩
  · rintro x rfl
    exact ⟨rfl, rfl, rfl, rfl, rfl, rfl, rfl, rfl, fun k => Vector.getElem_replicate k.isLt, rfl, rfl, rfl, rfl, rfl, rfl, rfl, rfl, rfl,
      rfl, rfl⟩

/-! ## The input stages (R176) -/

theorem LineInputs.put_at_self (ls : LineInputs) (l : Line) (v : LineInput) : (ls.put l v).at l = v := by cases l <;> rfl

theorem LineInputs.put_at_ne (ls : LineInputs) {l m : Line} (h : m ≠ l) (v : LineInput) : (ls.put l v).at m = ls.at m := by
  cases l <;> cases m <;> simp_all [LineInputs.put, LineInputs.at]

theorem rawLevel_bandOf (earlier : Bool) (mv : Nat) :
    rawLevel earlier (bandOf mv) = if mv ≤ 5000 then false else if 15000 ≤ mv then true else earlier := by
  unfold bandOf
  split
  · rfl
  · split <;> rfl

theorem filterTicks_eq (l : Line) : filterTicks l = if l = .mpres ∨ l = .clamp then 200000 else 100 := by cases l <;> rfl

/-- The input stage of a line after its voltage has changed; in a reset its filter timer stands still (log entry 14). -/
def changedStage (l : Line) (mv : Nat) (s : State) : LineInput :=
  if held s then ((s.lines.at l).moved (filterTicks l) mv).stopped else (s.lines.at l).moved (filterTicks l) mv

theorem changedStage_raw (l : Line) (mv : Nat) (s : State) :
    (changedStage l mv s).raw = if mv ≤ 5000 then false else if 15000 ≤ mv then true else (s.lines.at l).raw := by
  rw [← rawLevel_bandOf, changedStage]
  split <;> rfl

theorem changedStage_filtered (l : Line) (mv : Nat) (s : State) : (changedStage l mv s).filtered = (s.lines.at l).filtered := by
  unfold changedStage
  split <;> rfl

theorem changedStage_timer (l : Line) (mv : Nat) (s : State) :
    (changedStage l mv s).timer =
      if held s = true ∨ (changedStage l mv s).raw = (s.lines.at l).filtered then none
      else some ((s.lines.at l).timer.getD (if l = .mpres ∨ l = .clamp then 200000 else 100)) := by
  rw [← filterTicks_eq, changedStage]
  cases held s with
  | true => simp [LineInput.stopped]
  | false => simp [LineInput.moved]

/-- Settles O7: the stage that the command names takes the level of its voltage, with its filter timer stopped in a reset. -/
theorem lineRawChangeFilters : Obligations.LineRawChangeFilters := by
  intro l mv s
  have self : (s.putLine l (changedStage l mv s)).lines.at l = changedStage l mv s := LineInputs.put_at_self _ l _
  refine ⟨s.putLine l (changedStage l mv s), rfl, ?_, ?_, ?_, fun m h => LineInputs.put_at_ne _ h _, rfl⟩ <;> rw [self]
  · exact changedStage_raw l mv s
  · exact changedStage_filtered l mv s
  · exact changedStage_timer l mv s

end Sys2Proof.Machine
end

section
/-! PROOF. The tick: the clock, every timer, and the commands that fall due (R1, R9, R15, R176, R179; log entries 1, 3, 10 and 12). -/

namespace Sys2Proof.Machine

open Sys2Proof

variable {s t : State}

/-! ## When the part's own commands fall due -/

theorem reached_iff {clock start target : Word} : reached clock start target = true ↔ diff32 target start ≤ diff32 clock start :=
  decide_eq_true_iff

theorem filterDue_iff {l : Line} : filterDue l s = true ↔ FallsDue s (.lineFilterExpiry l) := by
  simp [filterDue, FallsDue, EdgeDue, expired]

theorem opens_iff {w : WindowNo} : opens s.timer s.timer.windows[w] = true ↔ FallsDue s (.windowOpen w) := by
  simp [opens, FallsDue]

theorem closes_iff {w : WindowNo} : closes s.timer s.timer.windows[w] = true ↔ FallsDue s (.windowClose w) := by
  simp [closes, FallsDue]

theorem stallDue_iff : stallDue s = true ↔ FallsDue s .stall := by
  rw [stallDue, Bool.and_eq_true, decide_eq_true_iff, decide_eq_true_iff]
  exact Iff.rfl

theorem openHit_eq_some {c : ChannelNo} {h : OpenHit} :
    openHit c s = some h ↔ (s.channel c).detector = .inHit ∧ (s.channel c).hit = some h := by
  simp [openHit]

/-- A condition on the open hit of a channel. -/
theorem openHit_test {c : ChannelNo} {P : OpenHit → Prop} [DecidablePred P] :
    (match openHit c s with | none => false | some h => decide (P h)) = true
      ↔ (s.channel c).detector = .inHit ∧ ∃ h, (s.channel c).hit = some h ∧ P h := by
  cases e : openHit c s with
  | none =>
    refine ⟨nofun, fun ⟨d, h, k, _⟩ => ?_⟩
    rw [openHit_eq_some.2 ⟨d, k⟩] at e
    cases e
  | some h =>
    obtain ⟨d, k⟩ := openHit_eq_some.1 e
    simp [d, k]

theorem hdtDue_iff {c : ChannelNo} : hdtDue c s = true ↔ FallsDue s (.hdtExpiry c) := by
  unfold hdtDue
  exact openHit_test (P := fun h => h.hdtLeft = 0)

theorem maxDue_iff {c : ChannelNo} : maxDue c s = true ↔ FallsDue s (.maxDurationExpiry c) := by
  unfold maxDue
  exact openHit_test (P := fun h => h.maxLeft = 0)

theorem lockoutDue_iff {c : ChannelNo} : lockoutDue c s = true ↔ FallsDue s (.lockoutExpiry c) := by
  simp [lockoutDue, FallsDue, expired]

theorem settleDue_iff {c : ChannelNo} : settleDue c s = true ↔ (s.channel c).state = .settling ∧ (s.channel c).settle = some 0 := by
  simp [settleDue, expired]

theorem routeDue_iff {c : ChannelNo} : routeDue c s = true ↔ FallsDue s (.routeEnd c) := by
  unfold routeDue FallsDue
  cases h : (s.channel c).route with
  | correlator => simp [h]
  | tester p e => simp [h, reached_iff]

theorem deadlineDue_iff {e : Event} :
    deadlineDue s e = true ↔ e.closing = false ∧ diff32 e.deadline e.firstArrival ≤ diff32 s.timer.clock e.firstArrival := by
  simp [deadlineDue, reached_iff]

theorem mountTimerDue_iff : mountTimerDue s = true ↔ FallsDue s .mountTimerExpiry := by
  simp [mountTimerDue, FallsDue, expired, and_assoc]

theorem attemptDue_iff : attemptDue s = true ↔ FallsDue s .attemptEndTick := by
  unfold attemptDue FallsDue
  cases s.tester with
  | nil => simp
  | cons x xs => cases h : x.attempt <;> simp [h, reached_iff]

theorem restDue_iff : restDue s = true ↔ FallsDue s .restExpiry := by
  unfold restDue FallsDue
  cases s.tester <;> simp [expired]

theorem blinkDue_iff : blinkDue s = true ↔ FallsDue s .lampBlinkToggle := by
  unfold blinkDue FallsDue
  cases s.evid.blink <;> simp

theorem headerReadDue_iff : headerReadDue s = true ↔ FallsDue s .enableHeaderReadStart := by
  simp [headerReadDue, FallsDue, and_assoc]

/-! ## The list of what has fallen due -/

theorem mem_dueIf {b : Bool} {i j : Instr} : i ∈ dueIf b j ↔ b = true ∧ i = j := by
  cases b <;> simp [dueIf]

theorem mem_allLines (l : Line) : l ∈ allLines := by cases l <;> decide

theorem mem_allWindows (w : WindowNo) : w ∈ allWindows := by fin_cases w <;> decide

/-- Every block's due commands: one clause for each kind. -/
theorem mem_dueBlocks {i : Instr} :
    i ∈ dueBlocks s ↔
      (∃ l, filterDue l s = true ∧ i = .lineFilterExpiry l)
      ∨ (∃ w, opens s.timer s.timer.windows[w] = true ∧ i = .windowOpen w)
      ∨ (∃ w, closes s.timer s.timer.windows[w] = true ∧ i = .windowClose w)
      ∨ (stallDue s = true ∧ i = .stall)
      ∨ (∃ c, hdtDue c s = true ∧ i = .hdtExpiry c) ∨ (∃ c, maxDue c s = true ∧ i = .maxDurationExpiry c)
      ∨ (∃ c, lockoutDue c s = true ∧ i = .lockoutExpiry c)
      ∨ (∃ c : ChannelNo, settleDue c s = true ∧ i = .settleExpiry c (Config.biasSample s.freeNext c.val))
      ∨ (∃ c, routeDue c s = true ∧ i = .routeEnd c)
      ∨ (∃ e ∈ s.corr.events, deadlineDue s e = true ∧ i = .eventDeadline e.serial)
      ∨ (mountTimerDue s = true ∧ i = .mountTimerExpiry) ∨ (attemptDue s = true ∧ i = .attemptEndTick)
      ∨ (restDue s = true ∧ i = .restExpiry) ∨ (blinkDue s = true ∧ i = .lampBlinkToggle)
      ∨ (headerReadDue s = true ∧ i = .enableHeaderReadStart) := by
  have windows : i ∈ (allWindows.map (dueWindow s)).flatten ↔
      (∃ w, opens s.timer s.timer.windows[w] = true ∧ i = .windowOpen w)
      ∨ (∃ w, closes s.timer s.timer.windows[w] = true ∧ i = .windowClose w) := by
    simp only [List.mem_flatten, List.mem_map, exists_exists_eq_and, mem_allWindows, true_and, dueWindow, List.mem_append,
      mem_dueIf, exists_or]
  have channels : i ∈ (allChannels.map (dueChannel s)).flatten ↔
      (((((∃ c, hdtDue c s = true ∧ i = .hdtExpiry c) ∨ (∃ c, maxDue c s = true ∧ i = .maxDurationExpiry c))
      ∨ (∃ c, lockoutDue c s = true ∧ i = .lockoutExpiry c))
      ∨ (∃ c : ChannelNo, settleDue c s = true ∧ i = .settleExpiry c (Config.biasSample s.freeNext c.val)))
      ∨ (∃ c, routeDue c s = true ∧ i = .routeEnd c)) := by
    simp only [List.mem_flatten, List.mem_map, exists_exists_eq_and, mem_allChannels, true_and, dueChannel, List.mem_append,
      mem_dueIf, exists_or]
  have lines : i ∈ (allLines.map fun l => dueIf (filterDue l s) (.lineFilterExpiry l)).flatten ↔
      ∃ l, filterDue l s = true ∧ i = .lineFilterExpiry l := by
    simp only [List.mem_flatten, List.mem_map, exists_exists_eq_and, mem_allLines, true_and, mem_dueIf]
  have deadlines : i ∈ dueDeadlines s ↔ ∃ e ∈ s.corr.events, deadlineDue s e = true ∧ i = .eventDeadline e.serial := by
    simp only [dueDeadlines, List.mem_map, List.mem_filter, and_assoc, eq_comm]
  simp only [dueBlocks, List.mem_append, lines, windows, channels, deadlines, mem_dueIf, or_assoc]

/-- The board's commands: the two of the resets. -/
def ofBoard (i : Instr) : Prop := i = .supplyReturnDelayExpiry ∨ i = .resetTaken

theorem mem_dueBoard {i : Instr} : i ∈ dueBoard s ↔ FallsDue s i ∧ ofBoard i := by
  simp only [dueBoard, List.mem_append, mem_dueIf, expired_iff, ofBoard]
  constructor
  · rintro (⟨h, rfl⟩ | ⟨h, rfl⟩)
    · exact ⟨h, .inl rfl⟩
    · exact ⟨h, .inr rfl⟩
  · rintro ⟨h, rfl | rfl⟩
    · exact .inl ⟨h, rfl⟩
    · exact .inr ⟨h, rfl⟩

/-- A block's command is on the list exactly when it falls due. -/
theorem mem_dueBlocks_iff {i : Instr} : i ∈ dueBlocks s ↔ FallsDue s i ∧ ¬ ofBoard i := by
  rw [mem_dueBlocks]
  simp only [filterDue_iff, opens_iff, closes_iff, stallDue_iff, hdtDue_iff, maxDue_iff, lockoutDue_iff, settleDue_iff, routeDue_iff,
    deadlineDue_iff, mountTimerDue_iff, attemptDue_iff, restDue_iff, blinkDue_iff, headerReadDue_iff]
  cases i with
  | settleExpiry c ua => simp [ofBoard, FallsDue, and_assoc, and_left_comm]
  | eventDeadline n => simp [ofBoard, FallsDue, @eq_comm _ n, and_comm]
  | _ => simp [ofBoard, FallsDue]

theorem mem_dueEvents {i : Instr} : i ∈ dueEvents s ↔ FallsDue s i ∧ (held s = false ∨ ofBoard i) := by
  simp only [dueEvents, List.mem_append, mem_dueBoard]
  cases held s with
  | true => simp
  | false =>
    simp only [Bool.false_eq_true, if_false, mem_dueBlocks_iff, true_or, and_true]
    tauto

/-! ## Their order (log entry 3) -/

theorem mem_insertKey {x y : Nat × Instr} {ys : List (Nat × Instr)} : x ∈ insertKey y ys ↔ x = y ∨ x ∈ ys := by
  induction ys with
  | nil => simp [insertKey]
  | cons z zs ih =>
    unfold insertKey
    split
    · simp
    · simp only [List.mem_cons, ih]
      tauto

theorem keyed_snd (seed n : Nat) (is : List Instr) : (keyed seed n is).map (·.2) = is := by
  induction is generalizing n with
  | nil => rfl
  | cons i is ih => simp [keyed, ih]

/-- The order given to the commands that fall due leaves out none and adds none. -/
theorem mem_ordered {seed : Nat} {i : Instr} {is : List Instr} : i ∈ ordered seed is ↔ i ∈ is := by
  have inserted (ks : List (Nat × Instr)) (x : Nat × Instr) : x ∈ ks.foldr insertKey [] ↔ x ∈ ks := by
    induction ks with
    | nil => simp
    | cons k ks ih => rw [List.foldr_cons, mem_insertKey, ih, List.mem_cons]
  unfold ordered
  conv_rhs => rw [← keyed_snd seed 0 is]
  simp only [List.mem_map, inserted]

/-! ## The tick -/

/-- The waiting commands are not read by what falls due. -/
theorem fallsDue_pending (q : List Instr) (i : Instr) : FallsDue { s with pending := q } i ↔ FallsDue s i := by
  cases i <;> exact Iff.rfl

/-- The clock waits for CLOCK_WRAP at this tick. -/
def Wraps (s : State) : Prop := held s = false ∧ s.timer.clock = BitVec.allOnes 32

/-- The state after the timers have aged, as the commands that fall due see it. -/
def seenAtTick (s : State) : State := if wrapping s && !held s then afterWrap (ageState s) else ageState s

theorem tick_pending (s : State) :
    (tick s).pending =
      dueIf (wrapping s && !held s) .clockWrap ++ ordered (ageState s).freeNext (dueEvents (seenAtTick s)) := rfl

theorem wraps_iff : (wrapping s && !held s) = true ↔ Wraps s := by
  simp [wrapping, Wraps, and_comm]

theorem ageState_of_held (h : held s = true) : ageState s = s.onBoard Board.aged := by
  have held' : held (s.onBoard Board.aged) = true := h
  simp [ageState, held']

theorem ageState_of_live (h : held s = false) : ageState s = ageBlocks (s.onBoard Board.aged) := by
  have held' : held (s.onBoard Board.aged) = false := h
  simp [ageState, held']

theorem ageState_timer (s : State) :
    (ageState s).timer = { s.timer with
      clock := if held s = true ∨ s.timer.clock = BitVec.allOnes 32 then s.timer.clock else s.timer.clock + 1 } := by
  cases h : held s with
  | true => simp [ageState_of_held h, State.onBoard]
  | false =>
    have aged : (ageState s).timer = s.timer.aged := congrArg State.timer (ageState_of_live h)
    rw [aged, CycleTimer.aged]
    simp only [Bool.false_eq_true, false_or]

theorem ageState_same (s : State) :
    (ageState s).board = s.board.aged ∧ (ageState s).front.hitDef = s.front.hitDef ∧ (ageState s).corr = s.corr
      ∧ (ageState s).xu = s.xu ∧ (ageState s).area = s.area ∧ (ageState s).variant = s.variant ∧ (ageState s).freeNext = s.freeNext := by
  cases h : held s with
  | true => simp [ageState_of_held h, State.onBoard]
  | false => simp [ageState_of_live h, State.onBoard, ageBlocks]

theorem ageState_held (s : State) : held (ageState s) = held s := by
  rw [held, (ageState_same s).1]
  rfl

theorem seenAtTick_of_wraps (h : Wraps s) : seenAtTick s = (ageState s).onTimer wrapClock := by
  have wraps : (wrapping s && !held s) = true := wraps_iff.2 h
  have still : wrapping (ageState s) = true := by
    rw [wrapping, ageState_timer]
    simp [h.2]
  rw [seenAtTick, if_pos wraps, afterWrap, if_pos still]

theorem seenAtTick_of_not_wraps (h : ¬ Wraps s) : seenAtTick s = ageState s := by
  have wraps : ¬ (wrapping s && !held s) = true := fun e => h (wraps_iff.1 e)
  rw [seenAtTick, if_neg wraps]

theorem seenAtTick_held (s : State) : held (seenAtTick s) = held s := by
  by_cases h : Wraps s
  · rw [seenAtTick_of_wraps h]
    exact ageState_held s
  · rw [seenAtTick_of_not_wraps h, ageState_held]

/-- The commands that join the queue at a tick. -/
theorem mem_tick_pending {i : Instr} :
    i ∈ (tick s).pending ↔ (i = .clockWrap ∧ Wraps s) ∨ (FallsDue (seenAtTick s) i ∧ (held s = false ∨ ofBoard i)) := by
  rw [tick_pending, List.mem_append, mem_dueIf, mem_ordered, mem_dueEvents, wraps_iff, seenAtTick_held, and_comm (a := Wraps s)]

/-- The state in which the statement judges what has fallen due: that of the tick, at a wrap with the clock at 0. -/
def judgedAtTick (s : State) : State :=
  if held s = false ∧ s.timer.clock = BitVec.allOnes 32 then
    { tick s with timer := wrapClock (tick s).timer, freeNext := s.freeNext }
  else { tick s with freeNext := s.freeNext }

theorem judgedAtTick_eq (s : State) : judgedAtTick s = { seenAtTick s with pending := (tick s).pending } := by
  have free : s.freeNext = (ageState s).freeNext := (ageState_same s).2.2.2.2.2.2.symm
  by_cases h : Wraps s
  · rw [judgedAtTick, if_pos (show held s = false ∧ _ from h), seenAtTick_of_wraps h, free]
    rfl
  · rw [judgedAtTick, if_neg (show ¬ (held s = false ∧ _) from h), seenAtTick_of_not_wraps h, free]
    rfl

/-- Settles O3: the timers age, and the list of what has fallen due is that of `FallsDue`, in a free order. -/
theorem tickAdvancesClock : Obligations.TickAdvancesClock := by
  intro s empty
  obtain ⟨board, hitDef, corr, xu, area, variant, -⟩ := ageState_same s
  refine ⟨tick s, judgedAtTick s, by rw [step, empty], ageState_timer s, board, fun h => ?_, fun h => ?_, hitDef, corr, xu, area, variant,
    fun h k => ?_, rfl, fun i => ?_⟩
  · have aged : ageState s = s.onBoard Board.aged := ageState_of_held h
    exact ⟨(congrArg State.lines aged :), (congrArg State.front aged :), (congrArg State.evid aged :), (congrArg State.mould aged :),
      (congrArg State.tester aged :)⟩
  · have aged : ageState s = ageBlocks (s.onBoard Board.aged) := ageState_of_live h
    refine ⟨fun l => ?_, fun c => ?_, (congrArg State.evid aged :), (congrArg State.mould aged :), (congrArg State.tester aged :)⟩
    · exact (congrArg (fun u : State => u.lines.at l) aged).trans (LineInputs.all_at _ _ l)
    · refine (congrArg (fun u : State => u.channel c) aged).trans ((ageBlocks_channel _ c).trans ?_)
      have drive : agedDrive (s.channel c).drive =
          (s.channel c).drive.bind fun d => if d.left ≤ 1 then none else some { d with left := d.left - 1 } := by
        cases (s.channel c).drive <;> rfl
      exact congrArg (fun d => { (s.channel c).aged with drive := d }) drive
  · rw [tick_pending, wraps_iff.2 ⟨h, k⟩]
    rfl
  · rw [mem_tick_pending, judgedAtTick_eq, fallsDue_pending]
    exact Iff.rfl

end Sys2Proof.Machine
end

section
/-! PROOF. The windows of the open cycle, the phase edges and the wrap of the clock (R1, R11, R14 to R16), and the small commands on
channels, the lamp and the registers (R31, R36, R42, R99, R148, R150). -/

namespace Sys2Proof.Machine

open Sys2Proof

variable {s t : State}

/-! ## Windows (R15, R16) -/

theorem steppedWindow_eq (t : CycleTimer) (w : Window) : steppedWindow t w = windowMoved t w := by
  simp [steppedWindow, windowMoved, opens, closes]

theorem stepWindows_windows (t : CycleTimer) (w : WindowNo) : (stepWindows t).windows[w] = windowMoved t t.windows[w] :=
  (mapWindows_get _ _ w).trans (steppedWindow_eq t _)

/-- Window changes move the windows and nothing else. -/
theorem stepWindows_moved (s : State) : WindowsMoved s (s.onTimer stepWindows) := ⟨stepWindows_windows s.timer, rfl⟩

theorem exec_windowOpen_of_due {w : WindowNo} (hh : held s = false) (h : opens s.timer s.timer.windows[w] = true) :
    exec (.windowOpen w) s = .next (s.onTimer stepWindows) :=
  respond_of_due (due := fun s => opens s.timer s.timer.windows[w]) hh h

theorem exec_windowClose_of_due {w : WindowNo} (hh : held s = false) (h : closes s.timer s.timer.windows[w] = true) :
    exec (.windowClose w) s = .next (s.onTimer stepWindows) :=
  respond_of_due (due := fun s => closes s.timer s.timer.windows[w]) hh h

/-- Settles O11: both commands take every window change of the clock value. -/
theorem windowsOpenAndClose : Obligations.WindowsOpenAndClose := by
  intro w s hh
  refine ⟨fun state reached => ?_, fun state reached => ?_⟩
  · refine ⟨_, exec_windowOpen_of_due hh (opens_iff.2 ⟨state, reached⟩), (stepWindows_windows s.timer w).trans ?_, stepWindows_moved s⟩
    exact if_pos ⟨state, reached⟩
  · refine ⟨_, exec_windowClose_of_due hh (closes_iff.2 ⟨state, reached⟩), (stepWindows_windows s.timer w).trans ?_, stepWindows_moved s⟩
    exact (if_neg fun e => absurd (state.symm.trans e.1) (by decide)).trans (if_pos ⟨state, reached⟩)

/-- The running maximum over the OPEN windows of a list: no less than where it starts, and attained or still there. -/
theorem foldl_largestOpen (field : WindowDef → Nat) (ws : List Window) (m : Nat) :
    (∀ w ∈ ws, w.state = .open → field w.defn ≤ ws.foldl (fun m w => if w.state = .open then max m (field w.defn) else m) m)
    ∧ m ≤ ws.foldl (fun m w => if w.state = .open then max m (field w.defn) else m) m
    ∧ (ws.foldl (fun m w => if w.state = .open then max m (field w.defn) else m) m = m
      ∨ ∃ w ∈ ws, w.state = .open ∧ field w.defn = ws.foldl (fun m w => if w.state = .open then max m (field w.defn) else m) m) := by
  induction ws generalizing m with
  | nil => simp
  | cons x xs ih =>
    rw [List.foldl_cons]
    obtain ⟨bound, start, attained⟩ := ih (if x.state = .open then max m (field x.defn) else m)
    generalize xs.foldl _ _ = top at *
    refine ⟨fun w hw open_ => ?_, ?_, ?_⟩
    · rcases List.mem_cons.1 hw with rfl | hw
      · rw [if_pos open_] at start
        omega
      · exact bound w hw open_
    · split at start <;> omega
    · rcases attained with e | ⟨w, hw, k⟩
      · split at e
        next open_ =>
          by_cases h : m ≤ field x.defn
          · exact .inr ⟨x, List.mem_cons_self, open_, by omega⟩
          · exact .inl (by omega)
        · exact .inl e
      · exact .inr ⟨w, List.mem_cons_of_mem _ hw, k⟩

theorem mem_windows_iff {v : Vector Window 8} {x : Window} : x ∈ v.toList ↔ ∃ w : WindowNo, v[w] = x := by
  rw [Vector.mem_toList_iff, Vector.mem_iff_getElem]
  exact ⟨fun ⟨i, hi, e⟩ => ⟨⟨i, hi⟩, e⟩, fun ⟨w, e⟩ => ⟨w.val, w.isLt, e⟩⟩

/-- The largest of a field over the OPEN windows bounds each of them, and is 0 or attained (R16). -/
theorem largestOpen_spec (field : WindowDef → Nat) (v : Vector Window 8) :
    (∀ w : WindowNo, v[w].state = .open → field v[w].defn ≤ largestOpen field v)
    ∧ (largestOpen field v = 0 ∨ ∃ w : WindowNo, v[w].state = .open ∧ field v[w].defn = largestOpen field v) := by
  obtain ⟨bound, -, attained⟩ := foldl_largestOpen field v.toList 0
  refine ⟨fun w => bound _ (mem_windows_iff.2 ⟨w, rfl⟩), attained.imp id ?_⟩
  rintro ⟨x, hx, k⟩
  obtain ⟨w, rfl⟩ := mem_windows_iff.1 hx
  exact ⟨w, k⟩

/-- Settles O12. -/
theorem raiseAndGateAreLargest : Obligations.RaiseAndGateAreLargest := by
  intro t
  obtain ⟨raiseBound, raiseMet⟩ := largestOpen_spec WindowDef.raise t.windows
  obtain ⟨gateBound, gateMet⟩ := largestOpen_spec WindowDef.weight t.windows
  exact ⟨fun w h => ⟨raiseBound w h, gateBound w h⟩, raiseMet, gateMet⟩

theorem wrappedWindow_eq (w : Window) : wrappedWindow w = if w.state = .disabled then w else { w with state := .spent } := by
  obtain ⟨state, defn⟩ := w
  cases state <;> rfl

/-- Settles O13. -/
theorem clockWraps : Obligations.ClockWraps := fun s hh last =>
  ⟨s.onTimer wrapClock, respond_of_due (due := fun s => decide (s.timer.clock = BitVec.allOnes 32)) hh (decide_eq_true last), rfl, rfl,
    fun w => (mapWindows_get _ _ w).trans (wrappedWindow_eq _), rfl⟩

/-! ## Phase edges (R11, R14) -/

theorem PerPhase.put_at_self {α : Type} (x : PerPhase α) (p : PhaseLine) (v : α) : (x.put p v).at p = v := by cases p <;> rfl

theorem PerPhase.put_at_ne {α : Type} (x : PerPhase α) {p q : PhaseLine} (h : q ≠ p) (v : α) : (x.put p v).at q = x.at q := by
  cases p <;> cases q <;> simp_all [PerPhase.put, PerPhase.at]

/-- The edge of a phase line, in its line's words. -/
theorem exec_phaseEdge {l : Line} {p : PhaseLine}
    (h : (l, p) ∈ [(Line.feed, PhaseLine.feed), (Line.vib, PhaseLine.vib), (Line.tamp, PhaseLine.tamp), (Line.strip, PhaseLine.strip)])
    (hh : held s = false) (due : EdgeDue s l) :
    exec (.lineFilterExpiry l) s = .next (lineEdge p (s.lines.at l).raw (filteredTo l s)) := by
  rw [exec_lineFilterExpiry_of_due l hh due]
  simp only [List.mem_cons, Prod.mk.injEq, List.not_mem_nil, or_false] at h
  rcases h with ⟨rfl, rfl⟩ | ⟨rfl, rfl⟩ | ⟨rfl, rfl⟩ | ⟨rfl, rfl⟩ <;> rfl

theorem lineEdge_of_selected {p : PhaseLine} {rising : Bool} (h : selects (s.timer.installed.phaseEdge.at p) rising = true) :
    lineEdge p rising s = s.onTimer (phaseEdge p) :=
  if_pos h

theorem lineEdge_of_not_selected {p : PhaseLine} {rising : Bool} (h : selects (s.timer.installed.phaseEdge.at p) rising = false) :
    lineEdge p rising s = s :=
  if_neg (by simp [h])

/-- The first edge of a phase line captures the clock, and every window change of the clock value comes with it. -/
theorem phaseEdge_first {p : PhaseLine} {t : CycleTimer} (h : t.captures.at p = none) : phaseEdge p t = stepWindows (capturePhase p t) := by
  simp [phaseEdge, h]

/-- A later edge is counted. -/
theorem phaseEdge_later {p : PhaseLine} {t : CycleTimer} (h : t.captures.at p ≠ none) :
    phaseEdge p t = { t with extras := t.extras.put p (satAdd 255 (t.extras.at p) 1) } := by
  obtain ⟨x, hx⟩ := Option.ne_none_iff_exists'.1 h
  simp [phaseEdge, hx]

theorem capturePhase_windows (p : PhaseLine) (t : CycleTimer) (w : WindowNo) :
    (capturePhase p t).windows[w] =
      if t.windows[w].state = .waiting ∧ t.windows[w].defn.anchor = .phase p then
        { t.windows[w] with state := if t.windows[w].defn.offset = 0 then .open else .pending }
      else t.windows[w] :=
  mapWindows_get _ _ w

/-- Settles O10: an edge that is not selected, the first one, and a later one. -/
theorem phaseEdgeCaptures : Obligations.PhaseEdgeCaptures := by
  intro l p s pair hh due
  rw [exec_phaseEdge pair hh due]
  refine ⟨fun sel => congrArg _ (lineEdge_of_not_selected (s := filteredTo l s) sel), fun sel first => ?_, fun sel later => ?_⟩ <;>
    rw [lineEdge_of_selected (s := filteredTo l s) sel]
  · have edge : phaseEdge p (filteredTo l s).timer = stepWindows (capturePhase p s.timer) := phaseEdge_first first
    refine ⟨_, rfl, ?_⟩
    rw [State.onTimer, edge]
    refine ⟨PerPhase.put_at_self _ p _, fun q hq => PerPhase.put_at_ne _ hq _, fun w => ?_, ?_⟩
    · rw [stepWindows_windows, capturePhase_windows]
      rfl
    · rfl
  · have edge := phaseEdge_later (t := (filteredTo l s).timer) later
    refine ⟨_, rfl, ?_⟩
    rw [State.onTimer, edge]
    exact ⟨PerPhase.put_at_self _ p _, fun q hq => PerPhase.put_at_ne _ hq _, rfl⟩

/-! ## Channel timers (R31, R36, R42) -/

/-- Changes of one channel's record that agree on it are one change. -/
theorem onChannel_congr {c : ChannelNo} {f g : Channel → Channel} (h : f (s.channel c) = g (s.channel c)) :
    s.onChannel c f = s.onChannel c g := by
  unfold State.onChannel
  rw [show f s.front.channels[c] = g s.front.channels[c] from h]

theorem crossingDue_of_hit {c : ChannelNo} {a : Nat} {h : OpenHit} (d : (s.channel c).detector = .inHit) (k : (s.channel c).hit = some h) :
    crossingDue c a s = decide (h.threshold ≤ min 100 a) := by
  simp [crossingDue, openHit_eq_some.2 ⟨d, k⟩]

/-- Settles O18. -/
theorem channelTimersAct : Obligations.ChannelTimersAct := by
  intro c s hh
  refine ⟨fun h a detector hit => ⟨fun reaches => ?_, fun below => ?_⟩, fun detector lockout => ?_, fun p e route reached => ?_⟩
  · have due : crossingDue c a s = true := (crossingDue_of_hit detector hit).trans (decide_eq_true reaches)
    refine (respond_of_due hh due).trans (congrArg _ (onChannel_congr ?_))
    simp [hit, crossedHit, satAdd, top16, ticksPerMicrosecond]
  · have due : crossingDue c a s = false :=
      (crossingDue_of_hit detector hit).trans (decide_eq_false (Nat.not_le.2 below))
    exact respond_of_not_due due
  · exact respond_of_due hh (lockoutDue_iff.2 ⟨detector, lockout⟩)
  · exact respond_of_due hh (routeDue_iff.2 ⟨p, e, route, reached⟩)

/-! ## The lamp (R99, R177) -/

/-- Settles O32. -/
theorem lampFollowsVerdict : Obligations.LampFollowsVerdict := by
  intro s
  refine ⟨fun b hh blink left => ?_, fun on => ⟨fun v => ?_, fun b v blink => ?_, fun v => ?_⟩, fun off => ?_⟩
  · refine (respond_of_due hh (blinkDue_iff.2 ⟨b, blink, left⟩)).trans ?_
    simp [State.onEvid, blink, Blink.toggled, blinkTicks, ticksPerMillisecond]
  · simp [lampOn, on, v]
  · simp [lampOn, on, v, blink]
  · rcases v with v | v | v <;> simp [lampOn, v]
  · simp [lampOn, off]

/-! ## Registers and the start of an enable (R148, R150) -/

theorem setEnable_of_en (h : s.xu.en = true) : setEnable s = s := by simp [setEnable, h]

theorem setEnable_of_not_en (h : s.xu.en = false) :
    setEnable s = s.onXu fun x => { x with en := true, checkCode := 0, enabling := .waiting } := by
  simp [setEnable, h]

/-- Settles O47. -/
theorem enableStarts : Obligations.EnableStarts := by
  intro s hh
  refine ⟨fun en => ?_, fun en => ?_, fun wait issue stray => ?_, fun issue => ?_⟩
  · exact (respond_always hh).trans (congrArg _ (setEnable_of_not_en en))
  · exact (respond_always hh).trans (congrArg _ (setEnable_of_en en))
  · exact respond_of_due hh (headerReadDue_iff.2 ⟨wait, issue, stray⟩)
  · exact respond_of_not_due (due := headerReadDue) (by simp [headerReadDue, issue])

theorem exec_registerWrite (r : Register) (v : Word) (hh : held s = false) :
    exec (.registerWrite r v) s = .next (writeRegister r v s) :=
  respond_always hh

/-- The low 12 bits of a written base are forced to 0. -/
theorem maskedBase_toNat (v : Word) : (v &&& 0xFFFFF000#32).toNat = v.toNat / 4096 * 4096 := by
  have shifted : v &&& 0xFFFFF000#32 = (v >>> 12) <<< 12 := by
    rw [show 0xFFFFF000#32 = BitVec.allOnes 32 <<< 12 from rfl]
    ext i hi
    simp only [BitVec.getElem_and, BitVec.getElem_shiftLeft, BitVec.getElem_ushiftRight, BitVec.getElem_allOnes]
    by_cases low : i < 12
    · simp [low]
    · simp [low, Nat.add_sub_cancel' (Nat.not_lt.1 low), BitVec.getLsbD_eq_getElem hi]
  rw [shifted, BitVec.toNat_shiftLeft, BitVec.toNat_ushiftRight, Nat.shiftLeft_eq, Nat.shiftRight_eq_div_pow]
  exact Nat.mod_eq_of_lt (lt_of_le_of_lt (Nat.div_mul_le_self _ _) v.isLt)

/-- Settles O46. -/
theorem registerWrites : Obligations.RegisterWrites := by
  intro v s hh
  simp only [exec_registerWrite _ v hh]
  refine ⟨fun en => ⟨⟨_, ?_, maskedBase_toNat v⟩, ?_⟩, fun en => ⟨?_, ?_⟩, fun odd => ?_, fun even => ?_, ?_, rfl, rfl⟩
  · simp [writeRegister, en, State.onXu]
  · simp [writeRegister, en, State.onXu]
  · simp [writeRegister, en]
  · simp [writeRegister, en]
  · have bit : v.getLsbD 0 = true := by simp [BitVec.getLsbD, odd]
    exact (congrArg _ (if_pos bit)).trans (respond_always hh).symm
  · have bit : ¬ v.getLsbD 0 = true := by simp [BitVec.getLsbD, even]
    exact (congrArg _ (if_neg bit)).trans (respond_always hh).symm
  · exact (respond_always hh).symm

end Sys2Proof.Machine
end

section
/-! PROOF. The arithmetic of the location, the verdict and the calibration (R69 to R74, R90 to R93, R145). -/

namespace Sys2Proof.Machine

open Sys2Proof

/-! ## Location (R69, R72 to R74) -/

/-- The rounded-up quotient of the path window, times its divisor, exceeds the length by less than the divisor. -/
theorem mul_pathWindow_le {L V m : Nat} : V * pathWindow L V m ≤ L * 1000 + V - 1 + V * m := by
  rw [pathWindow, Nat.mul_add]
  exact Nat.add_le_add_right (Nat.mul_div_le _ _) _

theorem pathWindow_bounds {L V m : Nat} (hL : 50 ≤ L) (hL' : L ≤ 4000) (hV : 100 ≤ V) (hV' : V ≤ 1000) (hm : m ≤ 65535) :
    50 ≤ pathWindow L V m ∧ pathWindow L V m ≤ 105535 := by
  have low : 50 ≤ (L * 1000 + V - 1) / V := (Nat.le_div_iff_mul_le (by omega)).2 (by omega)
  have high : (L * 1000 + V - 1) / V < 40001 := (Nat.div_lt_iff_lt_mul (by omega)).2 (by omega)
  rw [pathWindow]
  omega

/-- Settles O26: each bound follows from the velocity times the path window. -/
theorem locationArithmeticBounded : Obligations.LocationArithmeticBounded := by
  intro L V m dt hL hL' hV hV' hm hdt
  have product : ((V : Int) * dt).natAbs ≤ L * 1000 + V * m + V - 1 := by
    rw [Int.natAbs_mul, Int.natAbs_natCast]
    calc V * dt.natAbs ≤ V * pathWindow L V m := Nat.mul_le_mul_left V hdt
      _ ≤ L * 1000 + V - 1 + V * m := mul_pathWindow_le
      _ = L * 1000 + V * m + V - 1 := by omega
  have margin : V * m ≤ 1000 * 65535 := Nat.mul_le_mul hV' hm
  have window := pathWindow_bounds hL hL' hV hV' hm
  unfold positionOf doubledDistance
  generalize (V : Int) * dt = x at *
  generalize V * m = y at *
  exact ⟨window.1, window.2, product, by omega, by omega, by omega, by omega, by omega⟩

/-! ## Decay and verdict (R90 to R93) -/

theorem decayed_of_pos {k S : Nat} (h : 0 < k) : decayed k S = S - S / 2 ^ k := if_neg (by omega)

/-- The levels a score has reached are those up to `levelAt`, of thresholds in order. -/
theorem le_levelAt_iff {e : EvidencePart} {h S : Nat} (order : e.tWatch < e.tSuspect) (order' : e.tSuspect < e.tCrack) (n : Nat) :
    n ≤ levelAt e h S ↔ n = 0 ∨ (n = 1 ∧ e.tWatch - h ≤ S) ∨ (n = 2 ∧ e.tSuspect - h ≤ S) ∨ (n = 3 ∧ e.tCrack - h ≤ S) := by
  unfold levelAt
  split
  · omega
  · split
    · omega
    · split <;> omega

theorem levelAt_le_three (e : EvidencePart) (h S : Nat) : levelAt e h S ≤ 3 := by
  unfold levelAt
  split
  · omega
  · split
    · omega
    · split <;> omega

/-- A hysteresis only lowers the thresholds. -/
theorem upLevel_le_downLevel {e : EvidencePart} {S : Nat} (order : e.tWatch < e.tSuspect) (order' : e.tSuspect < e.tCrack) :
    upLevel e S ≤ downLevel e S := by
  refine (le_levelAt_iff order order' _).2 ?_
  have reached := (le_levelAt_iff (h := 0) (S := S) order order' (upLevel e S)).1 le_rfl
  omega

theorem level_verdictOfLevel {n : Nat} (h : n ≤ 3) : (verdictOfLevel n).level = n := by
  match n, h with
  | 0, _ | 1, _ | 2, _ | 3, _ => rfl

theorem level_hysteresisVerdict (e : EvidencePart) (v : Verdict) (S : Nat) :
    (hysteresisVerdict e v S).level =
      if v.level < upLevel e S then upLevel e S else if downLevel e S < v.level then downLevel e S else v.level := by
  unfold hysteresisVerdict
  split
  · exact level_verdictOfLevel (levelAt_le_three e _ S)
  · split
    · exact level_verdictOfLevel (levelAt_le_three e _ S)
    · rfl

theorem level_runFloor (e : EvidencePart) (run : Nat) (v : Verdict) :
    (runFloor e run v).level = if 0 < e.suspectRun ∧ e.suspectRun ≤ run ∧ v.level < 2 then 2 else v.level := by
  unfold runFloor
  split <;> rfl

/-- Settles O28. -/
theorem decayAndVerdict : Obligations.DecayAndVerdict := by
  refine ⟨fun k S => ⟨fun h => if_pos h, decayed_of_pos, fun h small => ?_, fun h large => ?_, decayed_le k S⟩,
    fun e v S run order order' _ => ⟨fun cracked => if_pos cracked, fun open_ => ?_⟩⟩
  · rw [decayed_of_pos h, Nat.div_eq_of_lt small, Nat.sub_zero]
  · have quotient : 0 < S / 2 ^ k := Nat.div_pos large (Nat.two_pow_pos k)
    have positive : 0 < S := (Nat.two_pow_pos k).trans_le large
    rw [decayed_of_pos h]
    omega
  · refine ⟨upLevel e S, downLevel e S, _, fun n => le_levelAt_iff order order' n, fun n => le_levelAt_iff order order' n,
      upLevel_le_downLevel order order', rfl, ?_⟩
    rw [verdictAfter, if_neg open_, level_runFloor, level_hysteresisVerdict]

/-! ## Calibration (R145) -/

/-- Settles O45: the velocity is the quotient of R145, which both inequalities pin. -/
theorem calibrationRule : Obligations.CalibrationRule := by
  refine fun transit L delay => ⟨fun h => if_pos h, fun h => ⟨(L * 1000 + (transit - delay) / 2) / (transit - delay), ?_, ?_, ?_⟩⟩
  · rw [calibrate, if_neg (by omega)]
    simp only [within, Bool.and_eq_true, decide_eq_true_eq]
    split <;> rfl
  · exact Nat.div_mul_le_self _ _
  · rw [Nat.mul_comm (_ + 1)]
    exact Nat.lt_mul_div_succ _ (Nat.sub_pos_of_lt h)

end Sys2Proof.Machine
end

section
/-! PROOF. What the requests of the other blocks make of the exchange unit: jobs, results, conditions, mirrors and located-event
offers, as equations (R160 to R164, R171, R174); and the stall, the first to use them (R9). -/

namespace Sys2Proof.Machine

open Sys2Proof

variable {p : Parts} {s t u : State}

/-! ## Frames of `Keeps` -/

theorem Keeps.outside (k : Keeps p s t) : OutsideKept s t := ⟨k.board, k.variant, k.area, k.pending⟩

/-- A request of the exchange unit changes nothing outside it, but for the free values it takes. -/
theorem Keeps.unitOnly (k : Keeps exchangeOnly s t) : { t with xu := s.xu, freeNext := s.freeNext } = s := by
  obtain ⟨⟩ := s
  obtain ⟨⟩ := t
  simp only [State.mk.injEq]
  exact ⟨k.variant, k.board, k.lines, k.timer rfl, k.front rfl, k.corr rfl, k.evid rfl, k.mould rfl, k.tester rfl, trivial, k.area,
    trivial, k.pending⟩

theorem active_congr (h : t.xu.area = s.xu.area) : active t = active s := by simp [active, h]

theorem Keeps.active (k : Keeps p s t) (w : p.unit = false := by rfl) : Machine.active t = Machine.active s :=
  active_congr (k.unit w).area

theorem Keeps.baseOf (k : Keeps p s t) (w : p.unit = false := by rfl) : Machine.baseOf t = Machine.baseOf s := by
  rw [Machine.baseOf, Machine.baseOf, (k.unit w).baseH, (k.unit w).baseL]

/-! ## Jobs (R162) -/

theorem queueRoom_iff : queueRoom s = true ↔ s.xu.queue.length < 16 := decide_eq_true_iff

@[simp] theorem addJob_queue (b : JobBody) (s : State) : (addJob b s).xu.queue = s.xu.queue ++ [jobOf s 0 b] := rfl

@[simp] theorem addJob_freeNext (b : JobBody) (s : State) : (addJob b s).freeNext = s.freeNext + 1 := rfl

@[simp] theorem addJob_cells (b : JobBody) (s : State) : (addJob b s).xu.cells = s.xu.cells := rfl

/-! ## Results (R160) -/

section
variable {o : OrderRef} {r : OrderResult} {head : Option OrderHead}

theorem giveResult_eq (h : s.xu.cells[o.cell] = .inHand o.take head) : giveResult o r s = resultGoesOn o.cell o.take head r s := by
  rw [giveResult, h]
  exact if_pos rfl

/-- While ACTIVE with room a result gets its job. -/
theorem giveResult_of_room (h : s.xu.cells[o.cell] = .inHand o.take head) (ha : active s = true) (hq : queueRoom s = true) :
    giveResult o r s = addJob (.result o.cell o.take (notifyOf head) r) s := by
  simp [giveResult_eq h, resultGoesOn, ha, hq]

/-- On a full queue a result waits in its entry. -/
theorem giveResult_of_full (h : s.xu.cells[o.cell] = .inHand o.take head) (ha : active s = true) (hq : queueRoom s = false) :
    giveResult o r s = s.putCell o.cell (.resultWaiting o.take head r) := by
  simp [giveResult_eq h, resultGoesOn, ha, hq]

/-- Outside ACTIVE a result is discarded. -/
theorem giveResult_of_not_active (h : s.xu.cells[o.cell] = .inHand o.take head) (ha : active s = false) :
    giveResult o r s = s.putCell o.cell .free := by
  simp [giveResult_eq h, resultGoesOn, ha]

end

/-! ## The zone mirror (R164) -/

theorem requestMirror_of_room (ha : active s = true) (hq : queueRoom s = true) :
    requestMirror s =
      addJob (.mirror (mirrorCopy (s.xu.mirrorGeneration + 1) s))
        (s.onXu fun x => { x with mirrorGeneration := s.xu.mirrorGeneration + 1 }) := by
  simp [requestMirror, ha, hq]

theorem requestMirror_of_no_room (h : active s = false ∨ queueRoom s = false) : requestMirror s = s := by
  rcases h with h | h <;> simp [requestMirror, h]

/-! ## Conditions (R171) -/

/-- The record of a condition handed on now, where one is created. -/
def conditionJobs (k : Condition) (chan : Option ChannelNo) (tick : Word) (s : State) : List Job :=
  if active s = true ∧ s.xu.carry = none ∧ journalRoom s = true ∧ queueRoom s = true then
    [jobOf s 0 (.condition (journalSlot s.xu.geometry (s.xu.nextJournal.getD 0)) (s.xu.nextJournal.getD 0)
      (noticed s.xu.noticeMask k.mask) { condition := k, chan := chan, cycle := s.timer.number, tick := tick })]
  else []

theorem handCondition_of_room {k : Condition} {chan : Option ChannelNo} {tick : Word} (ha : active s = true)
    (hc : s.xu.carry = none) (hj : journalRoom s = true) (hq : queueRoom s = true) :
    handCondition k chan tick s =
      createConditionJob { condition := k, chan := chan, cycle := s.timer.number, tick := tick } (accrue k.accrued s) :=
  if_pos (by simp only [Bool.and_eq_true, decide_eq_true_eq]; exact ⟨⟨⟨ha, hc⟩, hj⟩, hq⟩)

theorem handCondition_of_no_room {k : Condition} {chan : Option ChannelNo} {tick : Word}
    (h : ¬ (active s = true ∧ s.xu.carry = none ∧ journalRoom s = true ∧ queueRoom s = true)) :
    handCondition k chan tick s = accrue k.accrued s :=
  if_neg fun e => h (by
    simp only [Bool.and_eq_true, decide_eq_true_eq] at e
    obtain ⟨⟨⟨ha, hc⟩, hj⟩, hq⟩ := e
    exact ⟨ha, hc, hj, hq⟩)

theorem handCondition_queue (k : Condition) (chan : Option ChannelNo) (tick : Word) (s : State) :
    (handCondition k chan tick s).xu.queue = s.xu.queue ++ conditionJobs k chan tick s := by
  unfold conditionJobs
  split
  next room =>
    obtain ⟨ha, hc, hj, hq⟩ := room
    rw [handCondition_of_room ha hc hj hq]
    rfl
  next room =>
    rw [handCondition_of_no_room room, List.append_nil]
    rfl

theorem handCondition_accruals (k : Condition) (chan : Option ChannelNo) (tick : Word) (s : State) :
    (handCondition k chan tick s).xu.accruals = { s.xu.accruals with flags := s.xu.accruals.flags ||| k.accrued } := by
  by_cases room : active s = true ∧ s.xu.carry = none ∧ journalRoom s = true ∧ queueRoom s = true
  · obtain ⟨ha, hc, hj, hq⟩ := room
    rw [handCondition_of_room ha hc hj hq]
    rfl
  · rw [handCondition_of_no_room room]
    rfl

/-! ## Located-event offers (R174) -/

theorem offerSelected_iff (x : Exchange) (r : LocatedOffer) : offerSelected x r = true ↔ Selected x (r.zone.map (·.2.2)) := by
  unfold offerSelected
  cases h : r.zone with
  | none => simp [Selected]
  | some z =>
    obtain ⟨i, l, v⟩ := z
    simp [Selected, or_assoc]

/-- What becomes of an offer. -/
theorem offerLocated_offered (r : LocatedOffer) (s : State) : Offered r s (offerLocated r s) := by
  refine ⟨fun unselected => ?_, fun selected ha hl hq => ?_, fun selected full => ?_⟩
  · rw [offerLocated, if_neg (mt (offerSelected_iff _ _).1 unselected)]
  · rw [offerLocated, if_pos ((offerSelected_iff _ _).2 selected), ha, hl, hq]
    exact ⟨rfl, rfl, rfl⟩
  · have no_room : ¬ (active s && locatedRoom s && queueRoom s) = true := by
      simp only [Bool.and_eq_true]
      rintro ⟨⟨ha, hl⟩, hq⟩
      simp [ha, hl, hq] at full
    rw [offerLocated, if_pos ((offerSelected_iff _ _).2 selected), if_neg no_room]
    rfl

/-! ## The stall (R9) -/

theorem judgeQueue_of_noTest (h : s.tester = []) : judgeQueue s = s := by
  rw [judgeQueue, h]
  rfl

/-- The press is STOPPED by a stall. -/
def stoppedByStall (s : State) : State := s.onTimer fun t => { t with press := .stopped, stallMark := true }

/-- The stall's condition handed on; the tester comes next. -/
def stallNoted (s : State) : State := handCondition .stall none (BitVec.ofNat 32 (stallTick s.timer)) (stoppedByStall s)

theorem takeStall_eq (s : State) : takeStall s = judgeQueue (stallNoted s) := rfl

theorem stallNoted_keeps (s : State) : Keeps exchangeOnly (stoppedByStall s) (stallNoted s) := handCondition_keeps _ _ _ _

/-- Settles O14. -/
theorem stallStopsPress : Obligations.StallStopsPress := by
  intro s hh reached
  refine ⟨fun running => ?_, fun stopped => respond_of_not_due (due := stallDue) ?_⟩
  · have keeps := takeStall_keeps s
    have noted := stallNoted_keeps s
    refine ⟨takeStall s, respond_of_due hh (stallDue_iff.2 ⟨running, reached⟩), ?_, keeps.lines, keeps.latch, keeps.outside,
      fun noTest => ?_⟩
    · exact ((judgeQueue_keeps (stallNoted s)).timer rfl).trans (noted.timer rfl)
    · rw [takeStall_eq, judgeQueue_of_noTest ((noted.tester rfl).trans noTest)]
      refine ⟨noted.front rfl, noted.corr rfl, noted.evid rfl, noted.mould rfl, (noted.tester rfl).trans noTest, ?_,
        fun ha hc hj hq => ?_⟩
      · rw [stallNoted, handCondition_accruals]
        simp [Condition.accrued, stoppedByStall]
      · rw [stallNoted, handCondition_of_room (s := stoppedByStall s) ha hc hj hq]
        exact ⟨rfl, rfl⟩
  · simp [stallDue, stopped]

end Sys2Proof.Machine
end

section
/-! PROOF. Hit starts and hit ends at the detector, the correlator and the tester, and the deadlines of events (R30 to R34, R42, R46 to
R53, R58, R63, R86, R138). -/

namespace Sys2Proof.Machine

open Sys2Proof

variable {s t : State} {c d : ChannelNo} {e : Event}

/-! ## What the classes read -/

theorem live_congr (h : t.front = s.front) (c : ChannelNo) : live t c = live s c := by
  rw [live, live, State.channel, State.channel, h]

theorem locate_congr (h : t.evid = s.evid) (i : Nat) (p : PathEntry) (a b : Word) : locate t i p a b = locate s i p a b := by
  rw [locate, locate, zonesOf, zonesOf, h]

/-- A class reads the tables, which channels are LIVE, and the mould state. -/
theorem classOf_congr (hevid : t.evid = s.evid) (hlive : ∀ c, live t c = live s c) (hmould : t.mould = s.mould) (e : Event) :
    classOf t e = classOf s e := by
  have paths : pathsOf t = pathsOf s := by rw [pathsOf, pathsOf, hevid]
  have mould : locating t = locating s := by rw [locating, locating, hmould]
  have pair (a b : Member) : pairClass t a b = pairClass s a b := by
    simp only [pairClass, paths, mould, hlive, locate_congr hevid]
  simp only [classOf, pair]

/-- A change of a channel's record that leaves its state leaves which channels are LIVE. -/
theorem live_onChannel {f : Channel → Channel} (h : ∀ ch, (f ch).state = ch.state) (c d : ChannelNo) :
    live (s.onChannel c f) d = live s d := by
  rw [live, live]
  by_cases e : d = c
  · rw [e, State.channel_onChannel_self, h]
  · rw [State.channel_onChannel_ne (s := s) e]

/-! ## Closing an event (R58, R63, R86) -/

/-- A close changes the tallies, and nothing else in the correlator. -/
theorem closeEvent_corr (e : Event) (k : CloseCause) (s : State) :
    (closeEvent e k s).corr = { s.corr with tallies := tallyEvent s.corr.tallies (classOf s e) k (e.members.countP Member.rejected) } :=
  handOn_corr _ _ _ _

theorem offerLocated_evid (r : LocatedOffer) (s : State) : (offerLocated r s).evid = s.evid :=
  (offerLocated_keeps (p := exchangeOnly) r s).evid rfl

theorem pathsOf_congr (h : t.evid = s.evid) : pathsOf t = pathsOf s := by rw [pathsOf, pathsOf, h]

theorem zonesOf_congr (h : t.evid = s.evid) : zonesOf t = zonesOf s := by rw [zonesOf, zonesOf, h]

theorem pathsOf_takeLocated (z w a : Nat) (s : State) : pathsOf (takeLocated z w a s) = pathsOf s := by
  simp only [pathsOf, takeLocated, State.onTables, State.onEvid]
  cases s.evid.tables <;> rfl

theorem zonesOf_takeLocated (z w a : Nat) (s : State) :
    zonesOf (takeLocated z w a s) = (zonesOf s).modify z (ZoneEntry.heard (zoneIncrement s z w a)) :=
  zonesOf_onTables _ (fun zs => zs.modify z (ZoneEntry.heard (zoneIncrement s z w a))) s (fun _ => rfl) (List.modify_nil _ _)

theorem pathsOf_handOn (e : Event) (k : CloseCause) (x : EventClass) (s : State) : pathsOf (handOn e k x s) = pathsOf s := by
  cases x with
  | unzoned path pos => exact pathsOf_congr (offerLocated_evid _ _)
  | located path pos z => exact (pathsOf_congr (offerLocated_evid _ _)).trans (pathsOf_takeLocated _ _ _ _)
  | empty | continuous | ungated | unlocated => rfl

theorem pathsOf_closeEvent (e : Event) (k : CloseCause) (s : State) : pathsOf (closeEvent e k s) = pathsOf s :=
  pathsOf_handOn _ _ _ _

/-! ## Hit starts at the correlator (R46 to R50) -/

/-- A hit start counted as delivered (R45). -/
def startCounted (s : State) : State := s.onTallies fun x => { x with delivered := countUp x.delivered }

/-- A hit start that no event accepts opens one. -/
theorem corrHitStart_of_none {w : Word} {g : Nat} (h : ∀ e ∈ s.corr.events, accepts s c w e = false) :
    corrHitStart c w g s = openNew c w g (startCounted s) := by
  have none_accepts : (startCounted s).corr.events.findIdx? (accepts (startCounted s) c w) = none :=
    List.findIdx?_eq_none_iff.2 h
  rw [startCounted] at none_accepts
  rw [corrHitStart]
  simp only [none_accepts]
  rfl

theorem modify_append_cons {α : Type} (f : α → α) (xs : List α) (y : α) (ys : List α) :
    (xs ++ y :: ys).modify xs.length f = xs ++ f y :: ys :=
  List.modifyTailIdx_add _ 0 xs (y :: ys)

/-- A hit start joins the first event from the front that accepts it. -/
theorem corrHitStart_of_accepts {w : Word} {g : Nat} {before after : List Event} (events : s.corr.events = before ++ e :: after)
    (refused : ∀ x ∈ before, accepts s c w x = false) (accepted : accepts s c w e = true) :
    corrHitStart c w g s =
      ((startCounted s).onCorr fun r => { r with events := before ++ e.joined (newMember c w g) :: after }).putPlace c
        (.member e.serial) := by
  have first : s.corr.events.findIdx? (accepts s c w) = some before.length := by
    rw [events, List.findIdx?_append, List.findIdx?_eq_none_iff.2 refused, List.findIdx?_cons, accepted]
    simp
  have counted : (startCounted s).corr.events.findIdx? (accepts (startCounted s) c w) = some before.length := first
  rw [startCounted] at counted
  rw [corrHitStart]
  simp only [counted]
  simp [startCounted, State.onCorr, State.onTallies, events, modify_append_cons]

/-! ### Forced closes (R50) -/

theorem detach_eq (e : Event) (s : State) : detach e s = s.onCorr fun r => { r with places := (detach e s).corr.places } := by
  unfold detach
  generalize e.members = ms
  induction ms generalizing s with
  | nil => rfl
  | cons m ms ih =>
    rw [List.foldl_cons, ih]
    split <;> rfl

/-- The hit places of the members that have not ended become DETACHED. -/
theorem detach_place (e : Event) (s : State) (d : ChannelNo) :
    (detach e s).corr.places[d] = if ∃ m ∈ e.members, m.chan = d ∧ m.ended = none then .detached else s.corr.places[d] := by
  unfold detach
  generalize e.members = ms
  induction ms generalizing s with
  | nil => simp
  | cons m ms ih =>
    rw [List.foldl_cons, ih]
    cases ended : m.ended with
    | some h => simp [ended]
    | none =>
      by_cases chan : m.chan = d
      · subst chan
        simp [ended]
      · have other : (m.chan : Nat) ≠ (d : Nat) := fun k => chan (Fin.ext k)
        simp [ended, chan, Vector.getElem_set_ne _ _ other]

/-- The event a forced close takes off the list, with the members that have ended. -/
def endedPart (e : Event) : Event := { e with members := e.members.filter fun m => m.ended.isSome }

theorem forceClose_corr {es : List Event} (h : s.corr.events = e :: es) :
    (forceClose s).corr =
      { s.corr with
        events := es, places := (detach e s).corr.places
        tallies := tallyEvent s.corr.tallies (classOf s (endedPart e)) .forced ((endedPart e).members.countP Member.rejected) } := by
  have first : forceClose s = closeEvent (endedPart e) .forced (detach e (s.onCorr fun c => { c with events := es })) := by
    rw [forceClose]
    simp only [h]
    rfl
  have detached := detach_eq e (s.onCorr fun c => { c with events := es })
  have places : (detach e (s.onCorr fun c => { c with events := es })).corr.places = (detach e s).corr.places := by
    ext i hi
    exact (detach_place e _ ⟨i, hi⟩).trans (detach_place e s ⟨i, hi⟩).symm
  rw [first, closeEvent_corr, detached, places]
  rfl

theorem pathsOf_forceClose (s : State) : pathsOf (forceClose s) = pathsOf s := by
  unfold forceClose
  split
  · rfl
  next e es _ => exact (pathsOf_closeEvent _ _ _).trans (by rw [detach_eq]; rfl)

theorem forceClose_nextSerial (s : State) : (forceClose s).corr.nextSerial = s.corr.nextSerial := by
  cases h : s.corr.events with
  | nil => simp [forceClose, h]
  | cons e es => rw [forceClose_corr h]

/-- The state in which an event is opened: on a full list, after a forced close. -/
def madeRoom (s : State) : State := if 32 ≤ s.corr.events.length then forceClose s else s

theorem openNew_eq (c : ChannelNo) (w : Word) (g : Nat) (s : State) : openNew c w g s = openEvent c w g (madeRoom s) := rfl

theorem madeRoom_of_room (h : s.corr.events.length < 32) : madeRoom s = s := if_neg (Nat.not_le.2 h)

theorem madeRoom_of_full (h : 32 ≤ s.corr.events.length) : madeRoom s = forceClose s := if_pos h

theorem pathsOf_madeRoom (s : State) : pathsOf (madeRoom s) = pathsOf s := by
  unfold madeRoom
  split
  · exact pathsOf_forceClose s
  · rfl

theorem madeRoom_nextSerial (s : State) : (madeRoom s).corr.nextSerial = s.corr.nextSerial := by
  unfold madeRoom
  split
  · exact forceClose_nextSerial s
  · rfl

theorem madeRoom_events (s : State) :
    (madeRoom s).corr.events = if s.corr.events.length < 32 then s.corr.events else s.corr.events.tail := by
  unfold madeRoom
  split
  next full => rw [if_neg (Nat.not_lt.2 full), forceClose_events]
  next room => rw [if_pos (Nat.not_le.1 room)]

theorem openedEvent_congr {w : Word} {g : Nat} (hp : pathsOf t = pathsOf s) (hn : t.corr.nextSerial = s.corr.nextSerial) :
    openedEvent t c w g = openedEvent s c w g := by
  rw [openedEvent, openedEvent, hp, hn]

/-! ## Hit starts at the detector (R28, R30, R42) -/

/-- The hit of Table 13 is open. -/
def hitOpened (c : ChannelNo) (b a : Nat) (s : State) : State :=
  s.onChannel c fun ch => { ch with detector := .inHit, hit := some (openedHit s c b a) }

theorem startHit_eq (c : ChannelNo) (b a : Nat) (s : State) : startHit c b a s = deliverStart c (openedHit s c b a) (hitOpened c b a s) := rfl

/-- A half-wave that starts a hit on a channel with this base threshold: LIVE, ARMED and not in the instant of the entry (R28, R30). -/
theorem hitBase_of_armed {a b : Nat} (live_ : (s.channel c).state = .live) (armed : (s.channel c).detector = .armed)
    (now : (s.channel c).armedNow = false) (base : (s.channel c).base = some b) :
    hitBase c a s = if min 99 (b + currentRaise s.timer) ≤ min 100 a then some b else none := by
  simp [hitBase, live_, armed, now, base, activeThreshold]

theorem exec_hitStart_of_reaching {a b : Nat} (hh : held s = false) (live_ : (s.channel c).state = .live)
    (armed : (s.channel c).detector = .armed) (now : (s.channel c).armedNow = false) (base : (s.channel c).base = some b)
    (reaches : min 99 (b + currentRaise s.timer) ≤ min 100 a) : exec (.hitStart c a) s = .next (startHit c b a s) := by
  have found : hitBase c a s = some b := (hitBase_of_armed live_ armed now base).trans (if_pos reaches)
  refine (respond_of_due (due := fun s => (hitBase c a s).isSome) hh (by simp [found])).trans ?_
  rw [found]
  rfl

theorem receiverAt_tester_iff {r : Route} {w : Word} :
    receiverAt r w = .tester ↔ ∃ p e : Word, r = .tester p e ∧ diff32 w p < diff32 e p := by
  cases r with
  | correlator => simp [receiverAt]
  | tester p e => simp [receiverAt]

/-- Away from an attempt's route a hit's start goes to the correlator. -/
theorem startHit_of_correlator {a b : Nat} (h : receiverAt (s.channel c).route s.timer.clock = .correlator) :
    startHit c b a s = corrHitStart c s.timer.clock (currentGate s.timer) (hitOpened c b a s) := by
  rw [startHit_eq, deliverStart, show (openedHit s c b a).receiver = .correlator from h]
  rfl

theorem startHit_of_tester {a b : Nat} (h : receiverAt (s.channel c).route s.timer.clock = .tester) :
    startHit c b a s = testHitStart c s.timer.clock (hitOpened c b a s) := by
  rw [startHit_eq, deliverStart, show (openedHit s c b a).receiver = .tester from h]
  rfl

theorem startHit_front (c : ChannelNo) (b a : Nat) (s : State) : (startHit c b a s).front = (hitOpened c b a s).front := by
  cases h : receiverAt (s.channel c).route s.timer.clock with
  | correlator => exact (congrArg _ (startHit_of_correlator h)).trans ((corrHitStart_keeps _ _ _ _).front rfl)
  | tester => exact (congrArg _ (startHit_of_tester h)).trans (State.onTest_front (s := hitOpened c b a s) _)

theorem startHit_mould (c : ChannelNo) (b a : Nat) (s : State) : (startHit c b a s).mould = s.mould := by
  cases h : receiverAt (s.channel c).route s.timer.clock with
  | correlator => exact (congrArg _ (startHit_of_correlator h)).trans ((corrHitStart_keeps _ _ _ _).mould rfl)
  | tester => exact (congrArg _ (startHit_of_tester h)).trans (State.onTest_mould (s := hitOpened c b a s) _)

theorem tallyEvent_delivered (x : Tallies) (k : EventClass) (cause : CloseCause) (n : Nat) :
    (tallyEvent x k cause n).delivered = x.delivered := by
  cases k <;> cases cause <;> rfl

theorem forceClose_delivered (s : State) : (forceClose s).corr.tallies.delivered = s.corr.tallies.delivered := by
  cases h : s.corr.events with
  | nil => simp [forceClose, h]
  | cons e es => rw [forceClose_corr h, tallyEvent_delivered]

theorem openNew_delivered (c : ChannelNo) (w : Word) (g : Nat) (s : State) :
    (openNew c w g s).corr.tallies.delivered = s.corr.tallies.delivered := by
  by_cases full : 32 ≤ s.corr.events.length
  · rw [openNew_eq, madeRoom_of_full full]
    exact forceClose_delivered s
  · rw [openNew_eq, madeRoom_of_room (Nat.not_le.1 full)]
    rfl

theorem corrHitStart_delivered (c : ChannelNo) (w : Word) (g : Nat) (s : State) :
    (corrHitStart c w g s).corr.tallies.delivered = min 4294967295 (s.corr.tallies.delivered + 1) := by
  unfold corrHitStart
  simp only
  split
  · rfl
  · exact openNew_delivered _ _ _ _

theorem onTest_head (f : Test → Test) (s : State) : (s.onTest f).tester.head? = s.tester.head?.map f := by
  unfold State.onTest
  split
  next h => rw [h]; rfl
  next h => rw [h]; rfl

theorem onTest_tail (f : Test → Test) (s : State) : (s.onTest f).tester.tail = s.tester.tail := by
  unfold State.onTest
  split
  · rfl
  next h => rw [h]; rfl

/-- Settles O15. -/
theorem hitStartOpensHit : Obligations.HitStartOpensHit := by
  intro c a b s hh live_ armed now base
  refine ⟨fun reaches => ?_, fun below => respond_of_not_due (due := fun s => (hitBase c a s).isSome) ?_⟩
  · have keeps := startHit_keeps c b a s
    have channel (d : ChannelNo) : (startHit c b a s).channel d = (hitOpened c b a s).channel d := by
      rw [State.channel, startHit_front, State.channel]
    refine ⟨startHit c b a s, receiverAt (s.channel c).route s.timer.clock,
      exec_hitStart_of_reaching hh live_ armed now base reaches, receiverAt_tester_iff,
      (channel c).trans (State.channel_onChannel_self (s := s) c _),
      fun d hd => (channel d).trans (State.channel_onChannel_ne (s := s) hd _),
      fun corr => ?_, fun tester => ?_, ?_, keeps.timer rfl, ?_, keeps.lines, keeps.latch, keeps.outside⟩
    · rw [startHit_of_correlator corr]
      exact ⟨corrHitStart_delivered _ _ _ _, (corrHitStart_keeps _ _ _ _).tester rfl⟩
    · rw [startHit_of_tester tester]
      refine ⟨State.onTest_corr (s := hitOpened c b a s) _, State.onTest_evid (s := hitOpened c b a s) _,
        State.onTest_xu (s := hitOpened c b a s) _, onTest_tail _ _, fun x head => ?_⟩
      refine (onTest_head _ _).trans ?_
      rw [show (hitOpened c b a s).tester.head? = some x from head, Option.map_some]
      cases x.attempt <;> simp [seenPartner, and_assoc]
    · rw [startHit_front]
      rfl
    · exact startHit_mould c b a s
  · rw [hitBase_of_armed live_ armed now base, if_neg (Nat.not_le.2 below)]
    rfl

/-- The event opens behind the list, with the channel's place in it. -/
theorem openNew_corr (c : ChannelNo) (w : Word) (g : Nat) (s : State) :
    (openNew c w g s).corr =
      { (madeRoom s).corr with
        events := (if s.corr.events.length < 32 then s.corr.events else s.corr.events.tail) ++ [openedEvent s c w g]
        nextSerial := s.corr.nextSerial + 1
        places := (madeRoom s).corr.places.set c (.member s.corr.nextSerial) } := by
  rw [openNew_eq, ← madeRoom_events, ← openedEvent_congr (pathsOf_madeRoom s) (madeRoom_nextSerial s), ← madeRoom_nextSerial]
  rfl

theorem placeSet_ne {v : Vector HitPlace 16} (h : d ≠ c) (x : HitPlace) : (v.set c x)[d] = v[d] :=
  Vector.getElem_set_ne _ _ fun e => h (Fin.ext e.symm)

/-- A hit's opening changes which channels are LIVE no more than its count does. -/
theorem live_counted (c : ChannelNo) (b a : Nat) (s : State) (d : ChannelNo) :
    live (startCounted (hitOpened c b a s)) d = live s d :=
  live_onChannel (s := s) (f := fun ch => { ch with detector := .inHit, hit := some (openedHit s c b a) }) (fun _ => rfl) c d

/-- Settles O16: the event is opened behind the list, on a full list after the forced close of the event at the front. -/
theorem hitOpensEvent : Obligations.HitOpensEvent := by
  intro c a b s hh live_ armed now base route reaches refused
  have correlator : receiverAt (s.channel c).route s.timer.clock = .correlator := by rw [route]; rfl
  have start : startHit c b a s = openNew c s.timer.clock (currentGate s.timer) (startCounted (hitOpened c b a s)) :=
    (startHit_of_correlator correlator).trans (corrHitStart_of_none refused)
  have corr := openNew_corr c s.timer.clock (currentGate s.timer) (startCounted (hitOpened c b a s))
  have keeps := startHit_keeps c b a s
  have starts := corrHitStart_keeps c s.timer.clock (currentGate s.timer) (hitOpened c b a s)
  rw [← startHit_of_correlator correlator] at starts
  rw [← start] at corr
  refine ⟨startHit c b a s, exec_hitStart_of_reaching hh live_ armed now base reaches, ?_, ?_, fun room => ?_,
    fun e f es events full hf => ?_, (keeps.zones rfl).part, keeps.latch, starts.mould rfl, starts.tester rfl, keeps.timer rfl,
    keeps.lines, keeps.outside⟩
  · rw [corr]
    rfl
  · rw [corr]
    exact Vector.getElem_set_self _
  · have roomy : madeRoom (startCounted (hitOpened c b a s)) = startCounted (hitOpened c b a s) := madeRoom_of_room room
    refine ⟨fun d hd => ?_, ?_, ?_, ?_⟩
    · rw [corr, roomy]
      exact placeSet_ne hd _
    · rw [corr, roomy]
      rfl
    · rw [start, openNew_eq, roomy]
      rfl
    · rw [start, openNew_eq, roomy]
      rfl
  · have forced := forceClose_corr (s := startCounted (hitOpened c b a s)) events
    rw [classOf_congr (s := s) (t := startCounted (hitOpened c b a s)) rfl (live_counted c b a s) rfl] at forced
    rw [corr, madeRoom_of_full (s := startCounted (hitOpened c b a s)) full, forced, hf]
    exact ⟨fun d hd => (placeSet_ne hd _).trans (detach_place e _ d), rfl⟩

theorem accepts_of_joining {w : Word} {i : Nat} {p : PathEntry} (open_ : e.closing = false) (absent : ∀ m ∈ e.members, m.chan ≠ c)
    (path : joiningPath (pathsOf s) c e.firstChannel = some (i, p)) (window : diff32 w e.firstArrival ≤ p.window) :
    accepts s c w e = true := by
  simp only [accepts, open_, path]
  simpa [window] using absent

/-- Settles O17. -/
theorem hitJoinsFirstAcceptingEvent : Obligations.HitJoinsFirstAcceptingEvent := by
  intro c a b i e p before after s hh live_ armed now base route reaches events refused open_ absent path window
  have start := (startHit_of_correlator (b := b) (a := a) (by rw [route]; rfl)).trans
    (corrHitStart_of_accepts (s := hitOpened c b a s) (g := currentGate s.timer) events refused
      (accepts_of_joining (s := hitOpened c b a s) open_ absent path window))
  refine ⟨_, exec_hitStart_of_reaching hh live_ armed now base reaches, ?_⟩
  rw [start]
  exact ⟨rfl, Vector.getElem_set_self _, fun d hd => placeSet_ne hd _, rfl, rfl, rfl, rfl, rfl, rfl, rfl, rfl, rfl, rfl⟩

end Sys2Proof.Machine
end

section
/-! PROOF. Hit ends at the correlator and the tester, and the deadlines of events (R32 to R34, R52, R53, R58, R63, R86, R138). -/

namespace Sys2Proof.Machine

open Sys2Proof

variable {s t : State} {c d : ChannelNo} {e : Event} {h : OpenHit} {long : Bool}

/-! ## A hit ends by a timer (R32, R33) -/

/-- The detector's side of a hit's end. -/
def hitClosed (c : ChannelNo) (h : OpenHit) (s : State) : State := s.onChannel c (Channel.afterHit h)

theorem endHit_of_correlator (r : h.receiver = .correlator) :
    endHit c h long s = corrHitEnd c (endOf h long false) (hitClosed c h s) := by
  rw [endHit, r]
  rfl

theorem endHit_of_tester (r : h.receiver = .tester) : endHit c h long s = testHitEnd c (endOf h long false) (hitClosed c h s) := by
  rw [endHit, r]
  rfl

/-- The command of the timer that ends a hit. -/
theorem exec_hitEnd (hh : held s = false) (detector : (s.channel c).detector = .inHit) (hit : (s.channel c).hit = some h)
    (left : (if long = true then h.maxLeft else h.hdtLeft) = 0) :
    exec (if long = true then .maxDurationExpiry c else .hdtExpiry c) s = .next (endHit c h long s) := by
  have open_ : openHit c s = some h := openHit_eq_some.2 ⟨detector, hit⟩
  have ends (long : Bool) : endOpenHit c long s = endHit c h long s := by rw [endOpenHit, open_]
  cases long with
  | true =>
    refine (respond_of_due (due := maxDue c) (f := endOpenHit c true) hh (maxDue_iff.2 ⟨detector, h, hit, left⟩)).trans ?_
    rw [ends]
  | false =>
    refine (respond_of_due (due := hdtDue c) (f := endOpenHit c false) hh (hdtDue_iff.2 ⟨detector, h, hit, left⟩)).trans ?_
    rw [ends]

/-- The detector after a hit: LOCKOUT for the hit's HLT, ARMED when it is 0 (R32, R33). -/
theorem afterHit_eq (h : OpenHit) (ch : Channel) :
    ch.afterHit h =
      if h.hitDef.hlt = 0 then { ch with hit := none, detector := .armed, armedNow := true }
      else { ch with hit := none, detector := .lockout, lockout := some (h.hitDef.hlt * 10) } := rfl

theorem live_hitClosed (c : ChannelNo) (h : OpenHit) (s : State) (d : ChannelNo) : live (hitClosed c h s) d = live s d := by
  refine live_onChannel (s := s) (f := Channel.afterHit h) (fun ch => ?_) c d
  rw [afterHit_eq]
  split <;> rfl

/-! ## The tester's side (R138, R145) -/

/-- A tester's hit end is noted; the judgement follows when it is the last one of a draining attempt. -/
theorem testHitEnd_of_not_drained {x : HitEnd} (k : drained (noteHitEnd c x s) = false) : testHitEnd c x s = noteHitEnd c x s := by
  rw [testHitEnd]
  simp only [k]
  rfl

theorem noteHitEnd_head {x : HitEnd} {y : Test} {a : Attempt} (head : s.tester.head? = some y) (attempt : y.attempt = some a) :
    (noteHitEnd c x s).tester.head? = some { y with partners := y.partners.map (endedPartner s y a.pulseTick c x) } := by
  rw [noteHitEnd, onTest_head, head, Option.map_some, attempt]

theorem noteHitEnd_head_of_no_attempt {x : HitEnd} {y : Test} (head : s.tester.head? = some y) (attempt : y.attempt = none) :
    (noteHitEnd c x s).tester.head? = some y := by
  rw [noteHitEnd, onTest_head, head, Option.map_some, attempt]

theorem noteHitEnd_head_none {x : HitEnd} (head : s.tester.head? = none) : (noteHitEnd c x s).tester.head? = none := by
  rw [noteHitEnd, onTest_head, head, Option.map_none]

theorem drained_eq_false (k : ∀ y ∈ s.tester.head?, y.state ≠ .draining ∨ ∃ p ∈ y.partners, p.routed = true ∧ p.hitOpen = true) :
    drained s = false := by
  unfold drained
  split
  · rfl
  next y ys tests =>
    rcases k y (by rw [tests]; rfl) with state | ⟨p, mem, routed, open_⟩
    · simp [state]
    · have waits : (y.partners.any fun p => p.routed && p.hitOpen) = true := List.any_eq_true.2 ⟨p, mem, by simp [routed, open_]⟩
      simp [waits]

theorem endedPartner_of_ne {y : Test} {w : Word} {x : HitEnd} {p : Partner} (ne : p.chan ≠ c) : endedPartner s y w c x p = p := by
  simp [endedPartner, ne]

/-- No judgement follows a hit end while the head is not draining, or another partner's hit is open. -/
theorem not_drained_noteHitEnd {x : HitEnd}
    (k : ∀ y ∈ s.tester.head?, y.state ≠ .draining
        ∨ (y.attempt ≠ none ∧ ∃ p ∈ y.partners, p.routed = true ∧ p.hitOpen = true ∧ p.chan ≠ c)) :
    drained (noteHitEnd c x s) = false := by
  refine drained_eq_false fun y hy => ?_
  cases head : s.tester.head? with
  | none =>
    rw [noteHitEnd_head_none head] at hy
    cases hy
  | some z =>
    have waits := k z head
    cases attempt : z.attempt with
    | none =>
      rw [noteHitEnd_head_of_no_attempt head attempt, Option.mem_some_iff] at hy
      subst hy
      exact .inl (waits.resolve_right fun other => other.1 attempt)
    | some a =>
      rw [noteHitEnd_head head attempt, Option.mem_some_iff] at hy
      subst hy
      refine waits.imp id fun other => ?_
      obtain ⟨-, p, mem, routed, open_, ne⟩ := other
      exact ⟨p, List.mem_map.2 ⟨p, mem, endedPartner_of_ne ne⟩, routed, open_⟩

theorem hears_endOf (y : Test) (p : Partner) :
    hears y (endOf h long false) p = true ↔
      p.outcome ≠ some .pass ∧ p.outcome ≠ some .weak ∧ long = false ∧ h.hitDef.minCounts ≤ h.counts ∧ y.required ≤ h.peak := by
  simp only [hears, Bool.and_eq_true, decide_eq_true_eq]
  simp [heardEarlier, endOf, and_assoc]

/-- What a partner's hit end makes of its entry (R138, R145). -/
theorem endedPartner_endOf (s : State) (y : Test) (w : Word) (p : Partner) :
    endedPartner s y w c (endOf h long false) p =
      if p.chan = c ∧ p.hitOpen = true then
        { p with
          hitOpen := false
          heardNow :=
            if p.outcome ≠ some .pass ∧ p.outcome ≠ some .weak ∧ long = false ∧ h.hitDef.minCounts ≤ h.counts ∧ y.required ≤ h.peak then
              some (heardOf s y w (endOf h long false) p)
            else none }
      else p := by
  simp only [endedPartner, Bool.and_eq_true, decide_eq_true_eq, hears_endOf]

/-- Settles O19: the end goes to the hit's receiver. -/
theorem hitEndsByTimer : Obligations.HitEndsByTimer := by
  intro c h long s hh detector hit left waits
  have run := exec_hitEnd (long := long) hh detector hit left
  have channel {t : State} (k : t.front = (hitClosed c h s).front) : t.channel c =
        (if h.hitDef.hlt = 0 then { s.channel c with hit := none, detector := .armed, armedNow := true }
         else { s.channel c with hit := none, detector := .lockout, lockout := some (h.hitDef.hlt * 10) })
      ∧ (∀ d : ChannelNo, d ≠ c → t.channel d = s.channel d) ∧ t.front.hitDef = s.front.hitDef := by
    simp only [State.channel, k]
    exact ⟨State.channel_onChannel_self (s := s) c _, fun d ne => State.channel_onChannel_ne (s := s) ne _, rfl⟩
  cases receiver : h.receiver with
  | correlator =>
    have keeps := corrHitEnd_keeps c (endOf h long false) (hitClosed c h s)
    rw [endHit_of_correlator receiver] at run
    obtain ⟨self, others, hitDef⟩ := channel (keeps.front rfl)
    exact ⟨_, run, self, others, fun _ => keeps.tester rfl, nofun, hitDef, keeps.timer rfl, keeps.mould rfl, keeps.lines,
      keeps.latch, keeps.outside⟩
  | tester =>
    rw [receiver] at waits
    have keeps := noteHitEnd_keeps c (endOf h long false) (hitClosed c h s)
    rw [endHit_of_tester receiver, testHitEnd_of_not_drained (not_drained_noteHitEnd (s := hitClosed c h s) (waits.resolve_left nofun))] at run
    obtain ⟨self, others, hitDef⟩ := channel (State.onTest_front (s := hitClosed c h s) _)
    refine ⟨_, run, self, others, nofun, fun _ => ⟨State.onTest_corr (s := hitClosed c h s) _, State.onTest_evid (s := hitClosed c h s) _,
      State.onTest_xu (s := hitClosed c h s) _, onTest_tail _ _, fun y a head attempt => ?_⟩, hitDef, keeps.timer rfl,
      State.onTest_mould (s := hitClosed c h s) _, keeps.lines, keeps.latch, keeps.outside⟩
    rw [noteHitEnd_head (s := hitClosed c h s) head attempt]
    refine congrArg some (congrArg (fun ps => { y with partners := ps }) (List.map_congr_left fun p _ => ?_))
    exact endedPartner_endOf _ _ _ _

/-! ## The correlator's side (R53) -/

theorem findEvent_serial {n : Nat} (found : findEvent s n = some e) : e.serial = n :=
  of_decide_eq_true (List.find?_some (p := fun e : Event => decide (e.serial = n)) found)

section
variable {f : Event → Event} (serial : ∀ e, (f e).serial = e.serial) (n : Nat)
include serial

theorem serial_ite (e : Event) : (if e.serial = n then f e else e).serial = e.serial := by
  split
  · exact serial e
  · rfl

/-- A change of the events of one serial, which it leaves, is found under that serial. -/
theorem findEvent_onEvent_self {s : State} (found : findEvent s n = some e) : findEvent (onEvent n f s) n = some (f e) := by
  have same : (fun e : Event => decide (e.serial = n)) ∘ (fun e => if e.serial = n then f e else e) = fun e => decide (e.serial = n) :=
    funext fun e => by rw [Function.comp, serial_ite serial]
  rw [findEvent, onEvent, State.onCorr_corr, List.find?_map, same, ← findEvent, found, Option.map_some, if_pos (findEvent_serial found)]

theorem findEvent_onEvent_ne {k : Nat} (ne : k ≠ n) (s : State) : findEvent (onEvent n f s) k = findEvent s k := by
  have same : (fun e : Event => decide (e.serial = k)) ∘ (fun e => if e.serial = n then f e else e) = fun e => decide (e.serial = k) :=
    funext fun e => by rw [Function.comp, serial_ite serial]
  rw [findEvent, onEvent, State.onCorr_corr, List.find?_map, same, ← findEvent]
  cases found : findEvent s k with
  | none => rfl
  | some e => rw [Option.map_some, if_neg fun eq => ne ((findEvent_serial found).symm.trans eq)]

/-- The events of other serials, after a change of the events of this one. -/
theorem removed_onEvent (s : State) :
    ((onEvent n f s).corr.events.filter fun x => decide (x.serial ≠ n)) = s.corr.events.filter fun x => decide (x.serial ≠ n) := by
  have same : (fun e : Event => decide (e.serial ≠ n)) ∘ (fun e => if e.serial = n then f e else e) = fun e => decide (e.serial ≠ n) :=
    funext fun e => by rw [Function.comp, serial_ite serial]
  rw [onEvent, State.onCorr_corr, List.filter_map, same]
  refine (List.map_congr_left fun x mem => if_neg ?_).trans (List.map_id _)
  exact of_decide_eq_true (List.mem_filter.1 mem).2

end

theorem allEnded_iff : e.allEnded = true ↔ ∀ m ∈ e.members, m.ended ≠ none := by
  simp [Event.allEnded, Option.isSome_iff_ne_none]

theorem closeIfEnded_of_ended {n : Nat} (found : findEvent s n = some e) (closing : e.closing = true)
    (ended : ∀ m ∈ e.members, m.ended ≠ none) : closeIfEnded n s = closeEvent e .expiry (removeEvent n s) := by
  simp [closeIfEnded, found, closing, allEnded_iff.2 ended]

theorem closeIfEnded_of_open {n : Nat} (found : findEvent s n = some e)
    (open_ : e.closing = false ∨ ∃ m ∈ e.members, m.ended = none) : closeIfEnded n s = s := by
  have stays : (e.closing && e.allEnded) = false := by
    rcases open_ with closing | ⟨m, mem, ended⟩
    · rw [closing, Bool.false_and]
    · rw [Bool.and_eq_false_iff, ← Bool.not_eq_true e.allEnded, allEnded_iff]
      exact .inr fun all => all m mem ended
  simp [closeIfEnded, found, stays]

theorem closeIfEnded_places (n : Nat) (s : State) : (closeIfEnded n s).corr.places = s.corr.places := by
  unfold closeIfEnded
  split
  · rfl
  · split
    · rw [closeEvent_corr]
      rfl
    · rfl

theorem noteCorrEnd_place (x : HitEnd) (s : State) (d : ChannelNo) :
    (noteCorrEnd c x s).corr.places[d] = if d = c then .none else s.corr.places[d] := by
  have cleared : (s.corr.places.set c .none)[d] = if d = c then HitPlace.none else s.corr.places[d] := by
    split
    next eq =>
      subst eq
      exact Vector.getElem_set_self _
    next ne => exact placeSet_ne ne _
  unfold noteCorrEnd
  split
  next place =>
    split
    next eq => rw [eq, place]
    · rfl
  · exact cleared
  · exact cleared

theorem corrHitEnd_place (x : HitEnd) (s : State) (d : ChannelNo) :
    (corrHitEnd c x s).corr.places[d] = if d = c then .none else s.corr.places[d] := by
  rw [← noteCorrEnd_place x s d]
  unfold corrHitEnd
  split
  · rw [closeIfEnded_places]
  · rfl

theorem corrHitEnd_of_detached {x : HitEnd} (place : s.corr.places[c] = .detached) :
    corrHitEnd c x s = (s.putPlace c .none).onTallies fun t => { t with orphan := countUp t.orphan } := by
  simp [corrHitEnd, noteCorrEnd, place]

theorem corrHitEnd_of_member {x : HitEnd} {n : Nat} (place : s.corr.places[c] = .member n) :
    corrHitEnd c x s = closeIfEnded n (onEvent n (Event.filled c x) (s.putPlace c .none)) := by
  simp [corrHitEnd, noteCorrEnd, place]

/-- Settles O20: the end finds its place, and a CLOSING event whose last member it was closes. -/
theorem hitEndReachesCorrelator : Obligations.HitEndReachesCorrelator := by
  intro c h long s hh detector hit left receiver
  have run := exec_hitEnd (long := long) hh detector hit left
  rw [endHit_of_correlator receiver] at run
  have keeps := corrHitEnd_keeps c (endOf h long false) (hitClosed c h s)
  have place := corrHitEnd_place (c := c) (endOf h long false) (hitClosed c h s)
  refine ⟨_, run, (place c).trans (if_pos rfl), fun d ne => (place d).trans (if_neg ne), keeps.tester rfl, keeps.outside,
    fun detached => ?_, fun n e f member found hf => ?_⟩
  · rw [corrHitEnd_of_detached (s := hitClosed c h s) detached]
    exact ⟨rfl, rfl, rfl, rfl⟩
  · have filled : findEvent (onEvent n (Event.filled c (endOf h long false)) ((hitClosed c h s).putPlace c .none)) n = some f := by
      rw [hf]
      exact findEvent_onEvent_self (f := Event.filled c (endOf h long false)) (fun _ => rfl) n
        (s := (hitClosed c h s).putPlace c .none) found
    rw [corrHitEnd_of_member (s := hitClosed c h s) member]
    refine ⟨fun ⟨closing, ended⟩ => ?_, fun open_ => ?_⟩
    · rw [closeIfEnded_of_ended filled closing ended, closeEvent_corr]
      refine ⟨removed_onEvent (f := Event.filled c (endOf h long false)) (fun _ => rfl) n ((hitClosed c h s).putPlace c .none), ?_⟩
      rw [← classOf_congr (s := s) (t := hitClosed c h s) rfl (live_hitClosed c h s) rfl]
      rfl
    · rw [closeIfEnded_of_open filled open_]
      exact ⟨filled, List.length_map _, rfl, rfl, rfl⟩

/-! ## Deadlines (R52, R63, R86) -/

theorem exec_eventDeadline {n : Nat} (hh : held s = false) (found : findEvent s n = some e) (open_ : e.closing = false)
    (reached : diff32 e.deadline e.firstArrival ≤ diff32 s.timer.clock e.firstArrival) :
    exec (.eventDeadline n) s = .next (meetDeadline e s) := by
  have due : eventDue n s = true := by
    rw [eventDue, found]
    exact deadlineDue_iff.2 ⟨open_, reached⟩
  refine (respond_of_due hh due).trans ?_
  rw [takeDeadline, found]

/-- CLOSING at the deadline (R52). -/
def Event.closingNow (e : Event) : Event := { e with closing := true }

theorem meetDeadline_of_ended (ended : ∀ m ∈ e.members, m.ended ≠ none) :
    meetDeadline e s = closeEvent e .expiry (removeEvent e.serial s) := if_pos (allEnded_iff.2 ended)

theorem meetDeadline_of_open (open_ : ∃ m ∈ e.members, m.ended = none) :
    meetDeadline e s = onEvent e.serial Event.closingNow s := by
  obtain ⟨m, mem, ended⟩ := open_
  exact if_neg fun all => allEnded_iff.1 all m mem ended

/-- A close counted (R58). -/
def closeCounted (e : Event) (k : CloseCause) (s : State) : State :=
  s.onTallies fun t => tallyEvent t (classOf s e) k (e.members.countP Member.rejected)

/-- A closed event is counted and handed on. -/
theorem closeEvent_eq (e : Event) (k : CloseCause) (s : State) :
    closeEvent e k s = handOn e k (classOf s e) (closeCounted e k s) := rfl

/-- The event off the list and counted, before it is handed on. -/
def expiryCounted (e : Event) (s : State) : State := closeCounted e .expiry (removeEvent e.serial s)

/-- At its deadline an event whose members have all ended is handed on by its class. -/
theorem meetDeadline_handOn (ended : ∀ m ∈ e.members, m.ended ≠ none) :
    meetDeadline e s = handOn e .expiry (classOf s e) (expiryCounted e s) := meetDeadline_of_ended ended


/-- Settles O23. -/
theorem deadlineClosesEvent : Obligations.DeadlineClosesEvent := by
  intro n e s hh found open_ reached
  have keeps := meetDeadline_keeps e s
  have serial := findEvent_serial found
  refine ⟨_, exec_eventDeadline hh found open_ reached, fun ended => ?_, fun waits => ?_, keeps.timer rfl, keeps.front rfl,
    keeps.mould rfl, keeps.tester rfl, keeps.lines, keeps.latch, keeps.outside⟩
  · have corr : (meetDeadline e s).corr = _ := (congrArg _ (meetDeadline_of_ended ended)).trans (closeEvent_corr _ _ _)
    rw [corr, serial, meetDeadline_handOn ended]
    refine ⟨rfl, rfl, rfl, fun path pos unzoned => ?_, fun not_unzoned not_located => ?_⟩
    · rw [unzoned]
      exact ⟨offerLocated_evid _ _, offerLocated_offered (offerOf (expiryCounted e s) e .expiry path pos none 0) (expiryCounted e s)⟩
    · cases class_ : classOf s e with
      | unzoned path pos => exact absurd class_ (not_unzoned path pos)
      | located path pos z => exact absurd class_ (not_located path pos z)
      | empty | continuous | ungated | unlocated => exact ⟨rfl, rfl⟩
  · subst serial
    rw [meetDeadline_of_open waits]
    exact ⟨findEvent_onEvent_self (f := Event.closingNow) (fun _ => rfl) _ found,
      fun k ne => findEvent_onEvent_ne (f := Event.closingNow) (fun _ => rfl) _ ne s, rfl, rfl⟩

theorem zoneIncrement_eq {y : ZoneEntry} {z : Nat} (zone : (zonesOf s)[z]? = some y) (w a : Nat) :
    zoneIncrement s z w a = if y.floor ≤ a then w * (a - y.floor + 1) else 0 := by
  rw [zoneIncrement, zone]
  rfl

/-- A LOCATED event is taken by its zone, and offered as it stood before. -/
theorem handOn_located (k : CloseCause) (path pos z : Nat) :
    handOn e k (.located path pos z) s =
      offerLocated (offerOf s e k path pos (some (zoneLabel s z)) (zoneIncrement s z e.gate e.amplitude))
        (takeLocated z e.gate e.amplitude s) := rfl

theorem zonesOf_handOn_located (k : CloseCause) (path pos z : Nat) :
    zonesOf (handOn e k (.located path pos z) s) =
      (zonesOf s).modify z (ZoneEntry.heard (zoneIncrement s z e.gate e.amplitude)) :=
  (zonesOf_congr (offerLocated_evid _ _)).trans (zonesOf_takeLocated _ _ _ _)

/-- Settles O24. -/
theorem locatedEventScores : Obligations.LocatedEventScores := by
  intro n path pos z e y s hh found open_ reached ended located zone
  have keeps := meetDeadline_keeps e s
  have meets : meetDeadline e s = handOn e .expiry (.located path pos z) (expiryCounted e s) := by
    rw [meetDeadline_handOn ended, located]
  have inc : zoneIncrement (expiryCounted e s) z e.gate e.amplitude = _ := zoneIncrement_eq zone _ _
  have label : zoneLabel (expiryCounted e s) z = (z, y.label, y.verdict) := by
    rw [zoneLabel, show (zonesOf (expiryCounted e s))[z]? = some y from zone]
  refine ⟨_, _, exec_eventDeadline hh found open_ reached, rfl, ?_, fun j ne => ?_, ?_, (keeps.zones rfl).part, ?_⟩
  · rw [meets, zonesOf_handOn_located, List.getElem?_modify_eq, inc, show zonesOf (expiryCounted e s) = zonesOf s from rfl, zone]
    rfl
  · rw [meets, zonesOf_handOn_located, List.getElem?_modify_ne _ _ ne.symm]
    rfl
  · rw [meets, pathsOf_handOn]
    rfl
  · have offered := offerLocated_offered (offerOf (expiryCounted e s) e .expiry path pos (some (zoneLabel (expiryCounted e s) z))
      (zoneIncrement (expiryCounted e s) z e.gate e.amplitude)) (takeLocated z e.gate e.amplitude (expiryCounted e s))
    rw [← handOn_located, ← meets, inc, label] at offered
    exact offered

end Sys2Proof.Machine
end

section
/-! PROOF. What the mould manager makes of a channel that becomes LIVE (R23, R109, R116, R122). -/

namespace Sys2Proof.Machine

open Sys2Proof

variable {s t : State} {c d : ChannelNo}

/-! ## Reports of a channel's state (R26, R109) -/

theorem mouldFollow_of_unused (h : c ∉ s.mould.used) : mouldFollow c s = s := by simp [mouldFollow, h]

theorem mouldFollow_of_used (h : c ∈ s.mould.used) : mouldFollow c s = mouldDerive s := by simp [mouldFollow, h]

theorem mouldDerive_of_watching (h : s.mould.state = .watching ∨ s.mould.state = .degraded) :
    mouldDerive s = s.onMould fun m => { m with state := watchState s } := by
  rcases h with h | h <;> simp [mouldDerive, h]

theorem mouldDerive_of_mounting (state : s.mould.state = .mounting) (phase : s.mould.phase = .settling) (all : allSettled s = true) :
    mouldDerive s = mountComplete s := by
  simp [mouldDerive, state, phase, all]

theorem mouldDerive_of_suspended (state : s.mould.state = .suspended) :
    mouldDerive s = if clampLocked s && allSettled s then s.onMould fun m => { m with state := watchState s } else s := by
  simp [mouldDerive, state]

/-- A mirror shows the state in which it is asked for. -/
theorem mirrorCopy_eq (g : Word) (s : State) : mirrorCopy g s = mirrorOf g s := rfl

/-- The mould with its MOUNT complete, before the order is answered (R116). -/
def mountWatched (s : State) : State := s.onMould fun m => { m with phase := .none, state := watchState s, checkpoint := 0 }

theorem mountComplete_eq (s : State) : mountComplete s = requestMirror (dropOrder (answerOrder (mountResult s.mould) (mountWatched s))) := rfl

theorem mountComplete_mould (s : State) :
    (mountComplete s).mould = { s.mould with phase := .none, checkpoint := 0, order := .none, state := watchState s } := by
  rw [mountComplete_eq, (requestMirror_keeps (p := exchangeOnly) _).mould rfl, dropOrder, State.onMould_mould,
    (answerOrder_keeps (p := exchangeOnly) _ _).mould rfl]
  rfl

/-- With room for both, a completed MOUNT is answered, and a mirror follows. -/
theorem mountComplete_xu {o : OrderRef} {head : Option OrderHead} (order : s.mould.order = .mount o)
    (cell : s.xu.cells[o.cell] = .inHand o.take head) (ha : active s = true) (room : s.xu.queue.length + 1 < 16) :
    (mountComplete s).xu.queue = s.xu.queue ++
        [jobOf s 0 (.result o.cell o.take (notifyOf head) (mountResult s.mould)),
         jobOf s 1 (.mirror (mirrorOf (s.xu.mirrorGeneration + 1) (mountComplete s)))]
      ∧ (mountComplete s).xu.mirrorGeneration = s.xu.mirrorGeneration + 1 := by
  have answered : answerOrder (mountResult s.mould) (mountWatched s) =
      addJob (.result o.cell o.take (notifyOf head) (mountResult s.mould)) (mountWatched s) := by
    rw [answerOrder, show (mountWatched s).mould.order = .mount o from order]
    exact giveResult_of_room (s := mountWatched s) cell ha (queueRoom_iff.2 (Nat.lt_of_succ_lt room))
  have room' : queueRoom (dropOrder (addJob (.result o.cell o.take (notifyOf head) (mountResult s.mould)) (mountWatched s))) = true :=
    queueRoom_iff.2 (lt_of_eq_of_lt (List.length_append.trans rfl) room)
  have mirrored := requestMirror_of_room (show active (dropOrder (addJob _ (mountWatched s))) = true from ha) room'
  rw [mountComplete_eq, answered, mirrored, mirrorCopy_eq]
  exact ⟨List.append_assoc _ _ _, rfl⟩

/-! ## A channel that settles (R23) -/

/-- The channel LIVE and its detector ARMED. -/
def madeLive (c : ChannelNo) (s : State) : State :=
  s.onChannel c fun ch => { ch with state := .live, settle := none, detector := .armed, armedNow := true }

theorem exec_settleExpiry {ua : Nat} (hh : held s = false) (state : (s.channel c).state = .settling)
    (settle : (s.channel c).settle = some 0) : exec (.settleExpiry c ua) s = .next (settleChannel c ua s) :=
  respond_of_due hh (settleDue_iff.2 ⟨state, settle⟩)

theorem settleChannel_of_settled {ua : Nat} (h : ua ≤ 30000) : settleChannel c ua s = mouldFollow c (madeLive c s) := if_pos h

theorem madeLive_self (c : ChannelNo) (s : State) :
    (madeLive c s).channel c = { s.channel c with state := .live, settle := none, detector := .armed, armedNow := true } :=
  State.channel_onChannel_self (s := s) c _

theorem madeLive_ne (h : d ≠ c) : (madeLive c s).channel d = s.channel d := State.channel_onChannel_ne (s := s) h _

theorem live_madeLive (c d : ChannelNo) (s : State) : live (madeLive c s) d = (decide (d = c) || live s d) := by
  by_cases h : d = c
  · subst h
    simp [live, madeLive_self]
  · simp [live, madeLive_ne h, h]

theorem hearing_madeLive (h : ∀ d ∈ s.mould.used, d ≠ c → hearing s d = true) :
    ∀ d ∈ s.mould.used, hearing (madeLive c s) d = true := by
  intro d mem
  by_cases e : d = c
  · subst e
    simp [hearing, madeLive_self]
  · simpa [hearing, madeLive_ne e] using h d mem e

theorem settled_madeLive (c d : ChannelNo) (s : State) : settled (madeLive c s) d = true ↔ d = c ∨ settled s d = true := by
  by_cases e : d = c
  · subst e
    simp [settled, madeLive_self]
  · simp [settled, madeLive_ne e, e]

theorem allSettled_madeLive :
    allSettled (madeLive c s) = true ↔ ∀ d ∈ s.mould.used, d ≠ c → settled s d = true := by
  rw [allSettled, List.all_eq_true]
  simp only [settled_madeLive, or_iff_not_imp_left]
  rfl

/-- A channel that has settled is heard when it is LIVE. -/
theorem hearing_of_settled (h : settled s d = true) : hearing s d = live s d := by
  unfold settled at h
  unfold hearing live
  generalize (s.channel d).state = x at h
  cases x with
  | live | fault => rfl
  | off | settling | pulsing => cases h

theorem watchState_madeLive (all : allSettled (madeLive c s) = true) :
    watchState (madeLive c s) =
      if s.mould.used.all (fun d => decide (d = c) || live s d) = true then .watching else .degraded := by
  have heard : s.mould.used.all (hearing (madeLive c s)) = s.mould.used.all (fun d => decide (d = c) || live s d) := by
    refine Bool.eq_iff_iff.2 ?_
    rw [List.all_eq_true, List.all_eq_true]
    refine forall₂_congr fun d mem => ?_
    rw [hearing_of_settled (List.all_eq_true.1 all d mem), live_madeLive]
  rw [watchState, show (madeLive c s).mould.used = s.mould.used from rfl, heard]

/-- Settles O21. -/
theorem settleMakesLive : Obligations.SettleMakesLive := by
  intro c ua s hh state settle current
  have keeps := mouldFollow_keeps c (madeLive c s)
  have channel (d : ChannelNo) : (mouldFollow c (madeLive c s)).channel d = (madeLive c s).channel d := keeps.channel d
  refine ⟨_, (exec_settleExpiry hh state settle).trans (congrArg _ (settleChannel_of_settled current)),
    (channel c).trans (madeLive_self c s), fun d ne => (channel d).trans (madeLive_ne ne), ?_, keeps.timer rfl, keeps.corr rfl,
    keeps.evid rfl, keeps.tester rfl, keeps.lines, keeps.outside, fun unused => ?_, fun used degraded heard => ?_,
    fun used mounting phase all => ?_, fun used suspended => ?_⟩
  · rw [keeps.front rfl]
    rfl
  · rw [mouldFollow_of_unused (s := madeLive c s) unused]
    exact ⟨rfl, rfl⟩
  · rw [mouldFollow_of_used (s := madeLive c s) used, mouldDerive_of_watching (s := madeLive c s) (.inr degraded)]
    have watching_ : watchState (madeLive c s) = .watching := if_pos (List.all_eq_true.2 (hearing_madeLive heard))
    rw [watching_]
    rfl
  · have settled_ := allSettled_madeLive.2 all
    rw [mouldFollow_of_used (s := madeLive c s) used, mouldDerive_of_mounting (s := madeLive c s) mounting phase settled_]
    refine ⟨?_, fun o head order cell ha room => mountComplete_xu (s := madeLive c s) order cell ha room⟩
    rw [mountComplete_mould, watchState_madeLive settled_]
    rfl
  · rw [mouldFollow_of_used (s := madeLive c s) used, mouldDerive_of_suspended (s := madeLive c s) suspended]
    have iff_ : (clampLocked (madeLive c s) && allSettled (madeLive c s)) = true ↔
        clampLocked s = true ∧ ∀ d ∈ s.mould.used, d ≠ c → settled s d = true := by
      rw [Bool.and_eq_true, allSettled_madeLive]
      rfl
    by_cases relocked : (clampLocked (madeLive c s) && allSettled (madeLive c s)) = true
    · rw [if_pos relocked, if_pos (iff_.1 relocked), watchState_madeLive (Bool.and_eq_true_iff.1 relocked).2]
      exact ⟨rfl, rfl⟩
    · rw [if_neg relocked, if_neg (mt iff_.2 relocked)]
      exact ⟨rfl, rfl⟩

end Sys2Proof.Machine
end

section
/-! PROOF. What the tester, the channels and the correlator leave alone between them, whatever follows from a hit's end: the channels
without bias, the mould's used channels and its tables' sizes, and the flags of the open cycle's record (R26, R109, R138 to R143). -/

namespace Sys2Proof.Machine

open Sys2Proof

variable {s t u : State} {c d : ChannelNo}

/-! ## The relation -/

/-- A channel without bias. -/
def Down (ch : Channel) : Prop := ch.state = .off ∨ ch.state = .fault

/-- A channel without bias, with no hit open and no route to the tester. -/
def Mute (ch : Channel) : Prop := Down ch ∧ ch.hit = none ∧ ch.route = .correlator

/-- A mould state in which a channel's report changes nothing. -/
def MouldStill (s : State) : Prop :=
  (s.mould.state = .mounting ∧ s.mould.phase ≠ .settling) ∨ (s.mould.state = .suspended ∧ clampLocked s = false)
    ∨ s.mould.state = .empty ∨ s.mould.state = .dismounting

/-- The flags accrued to the open cycle's record are still there. -/
def FlagsGrow (s t : State) : Prop := ∀ f : Half, s.xu.accruals.flags &&& f = f → t.xu.accruals.flags &&& f = f

/-- What the tester, the channels and the correlator leave alone between them. -/
structure Interplay (s t : State) : Prop where
  lines : t.lines = s.lines
  base : ∀ c, (t.channel c).base = (s.channel c).base
  down : ∀ c, Down (s.channel c) → (t.channel c).state = (s.channel c).state
  mute : ∀ c, Mute (s.channel c) → t.channel c = s.channel c
  used : t.mould.used = s.mould.used
  offset : t.mould.offset = s.mould.offset
  watching : watching s = true → watching t = true
  degraded : ∀ c ∈ s.mould.used, (s.channel c).state = .fault → s.mould.state = .degraded → t.mould.state = .degraded
  still : MouldStill s → t.mould = s.mould
  paths : (pathsOf t).length = (pathsOf s).length
  zones : (zonesOf t).length = (zonesOf s).length
  flags : FlagsGrow s t

theorem FlagsGrow.of_eq (h : t.xu.accruals.flags = s.xu.accruals.flags) : FlagsGrow s t := fun f k => by rw [h, k]

theorem FlagsGrow.refl (s : State) : FlagsGrow s s := .of_eq rfl

theorem FlagsGrow.trans (h : FlagsGrow s t) (k : FlagsGrow t u) : FlagsGrow s u := fun f e => k f (h f e)

theorem Interplay.refl (s : State) : Interplay s s :=
  ⟨rfl, fun _ => rfl, fun _ _ => rfl, fun _ _ => rfl, rfl, rfl, id, fun _ _ _ => id, fun _ => rfl, rfl, rfl, .refl s⟩

theorem MouldStill.congr (hl : t.lines = s.lines) (hm : t.mould = s.mould) (h : MouldStill s) : MouldStill t := by
  rw [MouldStill, clampLocked, hl, hm]
  exact h

theorem Interplay.trans (h : Interplay s t) (k : Interplay t u) : Interplay s u where
  lines := k.lines.trans h.lines
  base c := (k.base c).trans (h.base c)
  down c e := (k.down c (by rw [Down, h.down c e]; exact e)).trans (h.down c e)
  mute c e := (k.mute c (by rw [h.mute c e]; exact e)).trans (h.mute c e)
  used := k.used.trans h.used
  offset := k.offset.trans h.offset
  watching e := k.watching (h.watching e)
  degraded c mem fault state :=
    k.degraded c (h.used.symm ▸ mem) ((h.down c (.inr fault)).trans fault) (h.degraded c mem fault state)
  still e := (k.still (e.congr h.lines (h.still e))).trans (h.still e)
  paths := k.paths.trans h.paths
  zones := k.zones.trans h.zones
  flags := h.flags.trans k.flags

theorem Interplay.foldl {α : Type} (f : State → α → State) (h : ∀ s x, Interplay s (f s x)) (xs : List α) (s : State) :
    Interplay s (xs.foldl f s) := by
  induction xs generalizing s with
  | nil => exact .refl s
  | cons x xs ih => exact (h s x).trans (ih _)

theorem watching_congr (h : t.mould = s.mould) : Machine.watching t = Machine.watching s := by
  rw [Machine.watching, Machine.watching, h]

/-- Nothing changes in the channels and the mould. -/
theorem Interplay.of_front (hl : t.lines = s.lines) (hf : t.front = s.front) (hm : t.mould = s.mould)
    (hp : (pathsOf t).length = (pathsOf s).length) (hz : (zonesOf t).length = (zonesOf s).length) (k : FlagsGrow s t) :
    Interplay s t := by
  have channel (c : ChannelNo) : t.channel c = s.channel c := by rw [State.channel, State.channel, hf]
  exact ⟨hl, fun c => by rw [channel], fun c _ => by rw [channel], fun c _ => channel c, by rw [hm], by rw [hm],
    fun h => (watching_congr hm).trans h, fun c _ _ h => by rw [hm, h], fun _ => hm, hp, hz, k⟩

/-- Requests of the exchange unit. -/
theorem Interplay.of_exchange (k : Keeps exchangeOnly s t) (h : FlagsGrow s t) : Interplay s t :=
  .of_front k.lines (k.front rfl) (k.mould rfl) (by rw [pathsOf_congr (k.evid rfl)]) (by rw [zonesOf_congr (k.evid rfl)]) h

/-! ## The exchange unit -/

theorem and_or_self_left {f g h : Half} (k : f &&& h = h) : (f ||| g) &&& h = h := by
  have mem : ∀ i : Nat, h.getLsbD i = true → f.getLsbD i = true := fun i hi => by
    rw [← k, BitVec.getLsbD_and, Bool.and_eq_true] at hi
    exact hi.1
  ext i hi
  have bit := mem i
  rw [BitVec.getLsbD_eq_getElem hi, BitVec.getLsbD_eq_getElem hi] at bit
  simp only [BitVec.getElem_and, BitVec.getElem_or]
  cases hb : h[i] <;> simp_all

theorem or_and_self_right (f g : Half) : (f ||| g) &&& g = g := by
  ext i hi
  simp only [BitVec.getElem_and, BitVec.getElem_or]
  cases g[i] <;> simp

theorem accrue_flagsGrow (f : Half) (s : State) : FlagsGrow s (accrue f s) := fun _ h => and_or_self_left h

theorem resultGoesOn_accruals (k : CellNo) (take : Word) (head : Option OrderHead) (r : OrderResult) (s : State) :
    (resultGoesOn k take head r s).xu.accruals = s.xu.accruals := by
  unfold resultGoesOn
  split
  · rfl
  · split <;> rfl

theorem giveResult_accruals (o : OrderRef) (r : OrderResult) (s : State) : (giveResult o r s).xu.accruals = s.xu.accruals := by
  unfold giveResult
  split
  · split
    · exact resultGoesOn_accruals _ _ _ _ _
    · rfl
  · rfl

theorem answerOrder_accruals (r : OrderResult) (s : State) : (answerOrder r s).xu.accruals = s.xu.accruals := by
  unfold answerOrder
  split
  · rfl
  · exact giveResult_accruals _ _ _
  · exact giveResult_accruals _ _ _

theorem requestMirror_accruals (s : State) : (requestMirror s).xu.accruals = s.xu.accruals := by
  unfold requestMirror
  split <;> rfl

theorem giveResult_interplay (o : OrderRef) (r : OrderResult) (s : State) : Interplay s (giveResult o r s) :=
  .of_exchange (giveResult_keeps o r s) (.of_eq (by rw [giveResult_accruals]))

theorem handCondition_interplay (k : Condition) (chan : Option ChannelNo) (tick : Word) (s : State) :
    Interplay s (handCondition k chan tick s) :=
  .of_exchange (handCondition_keeps k chan tick s) fun f h => by
    rw [handCondition_accruals]
    exact and_or_self_left h

theorem offerLocated_flags (r : LocatedOffer) (s : State) : (offerLocated r s).xu.accruals.flags = s.xu.accruals.flags := by
  unfold offerLocated
  split
  · split <;> rfl
  · rfl

/-! ## The correlator -/

theorem handOn_flags (e : Event) (k : CloseCause) (x : EventClass) (s : State) :
    (handOn e k x s).xu.accruals.flags = s.xu.accruals.flags := by
  cases x with
  | unzoned path pos => exact offerLocated_flags _ _
  | located path pos z => exact offerLocated_flags _ _
  | empty | continuous | ungated | unlocated => rfl

theorem zonesOf_handOn_length (e : Event) (k : CloseCause) (x : EventClass) (s : State) :
    (zonesOf (handOn e k x s)).length = (zonesOf s).length := by
  cases x with
  | unzoned path pos => exact congrArg _ (zonesOf_congr (offerLocated_evid (offerOf s e k path pos none 0) s))
  | located path pos z => rw [zonesOf_handOn_located, List.length_modify]
  | empty | continuous | ungated | unlocated => rfl

theorem closeEvent_interplay (e : Event) (k : CloseCause) (s : State) : Interplay s (closeEvent e k s) :=
  have keeps := closeEvent_keeps e k s
  .of_front keeps.lines (keeps.front rfl) (keeps.mould rfl) (by rw [pathsOf_closeEvent]) (zonesOf_handOn_length _ _ _ _)
    (.of_eq (handOn_flags _ _ _ _))

/-- Changes of the correlator alone. -/
theorem onCorr_interplay (f : Correlator → Correlator) (s : State) : Interplay s (s.onCorr f) :=
  .of_front rfl rfl rfl rfl rfl (.refl _)

theorem closeIfEnded_interplay (n : Nat) (s : State) : Interplay s (closeIfEnded n s) := by
  unfold closeIfEnded
  split
  · exact .refl s
  · split
    · exact (onCorr_interplay _ s).trans (closeEvent_interplay _ _ _)
    · exact .refl s

theorem noteCorrEnd_interplay (c : ChannelNo) (e : HitEnd) (s : State) : Interplay s (noteCorrEnd c e s) := by
  unfold noteCorrEnd
  split
  · exact .refl s
  · exact .of_front rfl rfl rfl rfl rfl (.refl _)
  · exact .of_front rfl rfl rfl rfl rfl (.refl _)

theorem corrHitEnd_interplay (c : ChannelNo) (e : HitEnd) (s : State) : Interplay s (corrHitEnd c e s) := by
  unfold corrHitEnd
  split
  · exact (noteCorrEnd_interplay c e s).trans (closeIfEnded_interplay _ _)
  · exact noteCorrEnd_interplay c e s

theorem cutEvents_interplay (s : State) : Interplay s (cutEvents s) :=
  (onCorr_interplay _ s).trans (.foldl _ (fun s e => closeEvent_interplay e .cut s) _ _)

/-! ## Channels and their reports -/

/-- A change of a channel's record that leaves its base threshold, its state without bias, and a mute record. -/
theorem onChannel_interplay {f : Channel → Channel} (c : ChannelNo) (s : State) (hb : (f (s.channel c)).base = (s.channel c).base)
    (hd : Down (s.channel c) → (f (s.channel c)).state = (s.channel c).state)
    (hm : Mute (s.channel c) → f (s.channel c) = s.channel c) : Interplay s (s.onChannel c f) := by
  refine ⟨rfl, fun d => ?_, fun d e => ?_, fun d e => ?_, rfl, rfl, id, fun _ _ _ => id, fun _ => rfl, rfl, rfl, .refl _⟩ <;>
    by_cases same : d = c
  · subst same
    rw [State.channel_onChannel_self, hb]
  · rw [State.channel_onChannel_ne s same]
  · subst same
    rw [State.channel_onChannel_self, hd e]
  · rw [State.channel_onChannel_ne s same]
  · subst same
    rw [State.channel_onChannel_self, hm e]
  · exact State.channel_onChannel_ne s same f

theorem mountComplete_accruals (s : State) : (mountComplete s).xu.accruals = s.xu.accruals := by
  rw [mountComplete_eq, requestMirror_accruals]
  exact answerOrder_accruals _ _

theorem mouldDerive_of_still (h : MouldStill s) : mouldDerive s = s := by
  rcases h with ⟨state, phase⟩ | ⟨state, clamp⟩ | state | state
  · simp [mouldDerive, state, phase]
  · simp [mouldDerive, state, clamp]
  · simp [mouldDerive, state]
  · simp [mouldDerive, state]

theorem mouldFollow_of_still (h : MouldStill s) (c : ChannelNo) : mouldFollow c s = s := by
  unfold mouldFollow
  split
  · exact mouldDerive_of_still h
  · rfl

theorem watchState_watching (s : State) : watchState s = .watching ∨ watchState s = .degraded := by
  unfold watchState
  split
  · exact .inl rfl
  · exact .inr rfl

/-- With a used channel at FAULT a watched mould is DEGRADED. -/
theorem watchState_of_fault (mem : c ∈ s.mould.used) (fault : (s.channel c).state = .fault) : watchState s = .degraded :=
  if_neg fun all => by simpa [hearing, fault] using List.all_eq_true.1 all c mem

theorem watching_iff : watching s = true ↔ s.mould.state = .watching ∨ s.mould.state = .degraded := by
  unfold watching
  cases s.mould.state <;> simp

theorem mouldDerive_interplay (s : State) : Interplay s (mouldDerive s) := by
  have keeps := mouldDerive_keeps s
  have channel (c : ChannelNo) : (mouldDerive s).channel c = s.channel c := keeps.channel c
  have evid : (mouldDerive s).evid = s.evid := keeps.evid rfl
  have mould : (mouldDerive s).mould.used = s.mould.used ∧ (mouldDerive s).mould.offset = s.mould.offset
      ∧ FlagsGrow s (mouldDerive s) := by
    unfold mouldDerive
    split
    · exact ⟨rfl, rfl, .refl _⟩
    · exact ⟨rfl, rfl, .refl _⟩
    · split
      · rw [mountComplete_mould]
        exact ⟨rfl, rfl, .of_eq (by rw [mountComplete_accruals])⟩
      · exact ⟨rfl, rfl, .refl _⟩
    · split
      · exact ⟨rfl, rfl, .refl _⟩
      · exact ⟨rfl, rfl, .refl _⟩
    · exact ⟨rfl, rfl, .refl _⟩
    · exact ⟨rfl, rfl, .refl _⟩
  obtain ⟨used, offset, flags⟩ := mould
  refine ⟨keeps.lines, fun c => by rw [channel], fun c _ => by rw [channel], fun c _ => channel c, used, offset, fun w => ?_,
    fun c mem fault degraded => ?_, fun still => by rw [mouldDerive_of_still still], by rw [pathsOf_congr evid],
    by rw [zonesOf_congr evid], flags⟩
  · rw [mouldDerive_of_watching (watching_iff.1 w)]
    exact watching_iff.2 (watchState_watching s)
  · rw [mouldDerive_of_watching (.inr degraded)]
    exact watchState_of_fault mem fault

theorem mouldFollow_interplay (c : ChannelNo) (s : State) : Interplay s (mouldFollow c s) := by
  unfold mouldFollow
  split
  · exact mouldDerive_interplay s
  · exact .refl s

theorem clearRoute_interplay (c : ChannelNo) (s : State) : Interplay s (clearRoute c s) :=
  onChannel_interplay c s rfl (fun _ => rfl) fun ⟨_, _, route⟩ => by
    rw [← route]

theorem clearRoutes_interplay (ps : List Partner) (s : State) : Interplay s (clearRoutes ps s) := by
  refine .foldl _ (fun s p => ?_) _ _
  split
  · exact clearRoute_interplay _ s
  · exact .refl s

theorem releaseSource_interplay (c : ChannelNo) (s : State) : Interplay s (releaseSource c s) := by
  unfold releaseSource
  split
  next pulsing =>
    have up : ¬ Down (s.channel c) := by simp [Down, pulsing]
    exact (onChannel_interplay c s rfl (fun k => absurd k up) fun k => absurd k.1 up).trans (mouldFollow_interplay _ _)
  · exact .refl s

/-! ## Tests (R133 to R140) -/

theorem onTest_interplay (f : Test → Test) (s : State) : Interplay s (s.onTest f) :=
  .of_front (State.onTest_lines s f) (State.onTest_front s f) (State.onTest_mould s f) (by rw [pathsOf_congr (State.onTest_evid s f)])
    (by rw [zonesOf_congr (State.onTest_evid s f)]) (.of_eq (by rw [State.onTest_xu]))

theorem dropHead_interplay (s : State) : Interplay s (dropHead s) := .of_front rfl rfl rfl rfl rfl (.refl _)

theorem pathsOf_onTables (f : Tables → Tables) (g : List PathEntry → List PathEntry) (s : State) (h : ∀ x, (f x).paths = g x.paths)
    (e : g [] = []) : pathsOf (s.onTables f) = g (pathsOf s) := by
  simp only [pathsOf, State.onTables, State.onEvid]
  cases s.evid.tables with
  | none => exact e.symm
  | some x => exact h x

theorem pathsOf_replaceVelocity (path v : Nat) (s : State) :
    pathsOf (replaceVelocity path v s) = (pathsOf s).modify path (PathEntry.replaced v) :=
  pathsOf_onTables _ (fun ps => ps.modify path (PathEntry.replaced v)) s (fun _ => rfl) (List.modify_nil _ _)

theorem zonesOf_replaceVelocity (path v : Nat) (s : State) : zonesOf (replaceVelocity path v s) = zonesOf s :=
  zonesOf_onTables _ id s (fun _ => rfl) rfl

theorem replaceVelocity_interplay (path v : Nat) (s : State) : Interplay s (replaceVelocity path v s) :=
  .of_front rfl rfl rfl (by rw [pathsOf_replaceVelocity, List.length_modify]) (by rw [zonesOf_replaceVelocity]) (.refl _)

theorem applyVelocities_interplay (ps : List Partner) (s : State) : Interplay s (applyVelocities ps s) := by
  refine .foldl _ (fun s p => ?_) _ _
  split
  · exact replaceVelocity_interplay _ _ s
  · exact .refl s

theorem accrue_interplay (f : Half) (s : State) : Interplay s (accrue f s) := .of_front rfl rfl rfl rfl rfl (accrue_flagsGrow f s)

theorem endTest_interplay (how : TestEnd) (x : Test) (s : State) : Interplay s (endTest how x s) := by
  unfold endTest
  dsimp only
  split
  · exact (applyVelocities_interplay _ s).trans ((accrue_interplay _ _).trans (giveResult_interplay _ _ _))
  · exact (accrue_interplay _ s).trans (giveResult_interplay _ _ _)

theorem dropped_interplay (how : TestEnd) (x : Test) (s : State) : Interplay s (dropHead (endTest how x s)) :=
  (endTest_interplay how x s).trans (dropHead_interplay _)

/-! ## Attempts (R135 to R137, R40) -/

/-- A change of a channel that is not down. -/
theorem onChannel_interplay_of_up {f : Channel → Channel} (c : ChannelNo) (s : State) (up : ¬ Down (s.channel c))
    (hb : (f (s.channel c)).base = (s.channel c).base) : Interplay s (s.onChannel c f) :=
  onChannel_interplay c s hb (fun k => absurd k up) fun k => absurd k.1 up

theorem not_down_of_live (h : live s c = true) : ¬ Down (s.channel c) := by
  have state : (s.channel c).state = .live := of_decide_eq_true h
  simp [Down, state]

theorem deliverOutsideAttempt_interplay (c : ChannelNo) (h : OpenHit) (s : State) : Interplay s (deliverOutsideAttempt c h s) := by
  unfold deliverOutsideAttempt
  split
  · exact corrHitEnd_interplay _ _ s
  · exact .refl s

theorem Down.congr {x y : Channel} (h : y.state = x.state) : Down y ↔ Down x := by rw [Down, Down, h]

/-- A LIVE source takes a pulse. -/
theorem pulseSource_interplay (level : Nat) (h : live s c = true) : Interplay s (pulseSource c level s) := by
  have up := not_down_of_live h
  unfold pulseSource
  dsimp only
  have idled : Interplay s (s.onChannel c Channel.idled) := onChannel_interplay_of_up c s up rfl
  have up' : ¬ Down ((s.onChannel c Channel.idled).channel c) := by rwa [State.channel_onChannel_self, Down.congr rfl]
  refine .trans ?_ (mouldFollow_interplay _ _)
  split
  · exact idled.trans (onChannel_interplay_of_up c _ up' rfl)
  next hit _ =>
    have front : (deliverOutsideAttempt c hit (s.onChannel c Channel.idled)).channel c = (s.onChannel c Channel.idled).channel c :=
      (deliverOutsideAttempt_keeps _ _ _).channel c
    exact (idled.trans (deliverOutsideAttempt_interplay _ _ _)).trans (onChannel_interplay_of_up c _ (by rwa [front]) rfl)

/-- The source's record after a pulse request (R40). -/
theorem pulseSource_self (c : ChannelNo) (level : Nat) (s : State) :
    (pulseSource c level s).channel c = { (s.channel c).idled with state := .pulsing, drive := some { level := level, left := 10 } } := by
  unfold pulseSource
  dsimp only
  rw [(mouldFollow_keeps c _).channel c, State.channel_onChannel_self]
  split
  · rw [State.channel_onChannel_self]
    rfl
  · rw [(deliverOutsideAttempt_keeps _ _ _).channel c, State.channel_onChannel_self]
    rfl

theorem pulseSource_ne (h : d ≠ c) (level : Nat) (s : State) : (pulseSource c level s).channel d = s.channel d := by
  unfold pulseSource
  dsimp only
  rw [(mouldFollow_keeps c _).channel d, State.channel_onChannel_ne _ h]
  split
  · exact State.channel_onChannel_ne s h _
  · rw [(deliverOutsideAttempt_keeps _ _ _).channel d]
    exact State.channel_onChannel_ne s h _

/-- A channel LIVE before a pulse request is LIVE or PULSING after it. -/
theorem not_down_pulseSource (level : Nat) (h : live s d = true) : ¬ Down ((pulseSource c level s).channel d) := by
  by_cases same : d = c
  · subst same
    simp [pulseSource_self, Down]
  · rw [pulseSource_ne same]
    exact not_down_of_live h

theorem setRoutes_cons (w : Word) (p : Partner) (ps : List Partner) (s : State) :
    setRoutes w (p :: ps) s =
      setRoutes w ps (if p.routed then
        s.onChannel p.chan fun ch => { ch with route := .tester w (w + BitVec.ofNat 32 (partnerWindow s p)) } else s) := rfl

theorem setRoutes_interplay (w : Word) (ps : List Partner) (s : State)
    (h : ∀ p ∈ ps, p.routed = true → ¬ Down (s.channel p.chan)) : Interplay s (setRoutes w ps s) := by
  induction ps generalizing s with
  | nil => exact .refl s
  | cons p ps ih =>
    rw [setRoutes_cons]
    split
    next routed =>
      refine (onChannel_interplay_of_up p.chan s (h p List.mem_cons_self routed) rfl).trans (ih _ fun q mem k => ?_)
      have up := h q (List.mem_cons_of_mem _ mem) k
      by_cases same : q.chan = p.chan
      · rw [same] at up ⊢
        rwa [State.channel_onChannel_self, Down.congr rfl]
      · rwa [State.channel_onChannel_ne _ same]
    · exact ih s fun q mem => h q (List.mem_cons_of_mem _ mem)

theorem driveAttempt_eq (x : Test) (s : State) :
    driveAttempt x s =
      (setRoutes s.timer.clock x.partners (pulseSource x.source x.level s)).onTest fun _ =>
        { x with
          state := .listening
          attempt := some { pulseTick := s.timer.clock
                            endTick := s.timer.clock + BitVec.ofNat 32
                              (longestSpan (setRoutes s.timer.clock x.partners (pulseSource x.source x.level s)) x.partners) } } := rfl

/-- An attempt that is driven has a LIVE source and LIVE routed partners. -/
theorem driveAttempt_interplay (x : Test) (source : live s x.source = true)
    (h : ∀ p ∈ x.partners, p.routed = true → live s p.chan = true) : Interplay s (driveAttempt x s) := by
  rw [driveAttempt_eq]
  refine ((pulseSource_interplay x.level source).trans (setRoutes_interplay _ _ _ fun p mem routed => ?_)).trans (onTest_interplay _ _)
  exact not_down_pulseSource _ (h p mem routed)

theorem routePartner_live {p : Partner} {first : Bool} (h : (routePartner s first p).routed = true) :
    live s (routePartner s first p).chan = true := by
  unfold routePartner at h ⊢
  cases first with
  | true => exact h
  | false => exact (Bool.and_eq_true_iff.1 h).2

theorem judgeHead_interplay (n : Nat) (s : State) : Interplay s (judgeHead n s) := by
  induction n generalizing s with
  | zero => exact .refl s
  | succ n ih =>
    unfold judgeHead
    split
    · exact .refl s
    · split
      · exact .refl s
      · split
        · exact (dropped_interplay _ _ s).trans (ih _)
        · split
          next due =>
            simp only [startable, Bool.and_eq_true] at due
            dsimp only
            split
            · refine driveAttempt_interplay _ due.2 fun p mem routed => ?_
              obtain ⟨q, -, rfl⟩ := List.mem_map.1 mem
              exact routePartner_live routed
            · exact (dropped_interplay _ _ s).trans (ih _)
          · exact .refl s

theorem judgeQueue_interplay (s : State) : Interplay s (judgeQueue s) := judgeHead_interplay _ s

theorem judgeAttempt_interplay (s : State) : Interplay s (judgeAttempt s) := by
  unfold judgeAttempt
  split
  · exact .refl s
  · dsimp only
    split
    · exact (dropped_interplay _ _ s).trans (judgeQueue_interplay _)
    · exact onTest_interplay _ s

theorem noteHitEnd_interplay (c : ChannelNo) (e : HitEnd) (s : State) : Interplay s (noteHitEnd c e s) := onTest_interplay _ s

theorem testHitEnd_interplay (c : ChannelNo) (e : HitEnd) (s : State) : Interplay s (testHitEnd c e s) := by
  unfold testHitEnd
  dsimp only
  split
  · exact (noteHitEnd_interplay c e s).trans (judgeAttempt_interplay _)
  · exact noteHitEnd_interplay c e s

/-! ## Cuts and faults (R24, R35, R143) -/

theorem deliverEnd_interplay (all : Bool) (c : ChannelNo) (r : Receiver) (e : HitEnd) (s : State) : Interplay s (deliverEnd all c r e s) := by
  unfold deliverEnd
  split
  · split
    · exact noteCorrEnd_interplay c e s
    · exact corrHitEnd_interplay c e s
  · split
    · exact noteHitEnd_interplay c e s
    · exact testHitEnd_interplay c e s

/-- A cut, after which the detector's record is as before but for the detector. -/
theorem cutHit_interplay (all : Bool) {after : Channel → Channel} (hb : ∀ ch, (after ch).base = ch.base)
    (hs : ∀ ch, (after ch).state = ch.state) (c : ChannelNo) (s : State) : Interplay s (cutHit all after c s) := by
  unfold cutHit
  split
  · exact .refl s
  next h hit =>
    refine (onChannel_interplay (f := fun ch => after { ch with hit := none }) c s (hb _) (fun _ => hs _) fun mute => ?_).trans
      (deliverEnd_interplay _ _ _ _ _)
    rw [mute.2.1] at hit
    cases hit

theorem cutHit_idled_interplay (all : Bool) (c : ChannelNo) (s : State) : Interplay s (cutHit all Channel.idled c s) :=
  cutHit_interplay all (after := Channel.idled) (fun _ => rfl) (fun _ => rfl) c s

theorem cutHits_interplay (s : State) : Interplay s (cutHits s) :=
  .foldl (fun s c => cutHit true Channel.armed c s)
    (fun s c => cutHit_interplay true (after := Channel.armed) (fun _ => rfl) (fun _ => rfl) c s) _ _

theorem testerFollow_interplay (c : ChannelNo) (s : State) : Interplay s (testerFollow c s) := by
  unfold testerFollow
  split
  · exact .refl s
  · split
    · exact ((clearRoutes_interplay _ s).trans (dropped_interplay _ _ _)).trans (judgeQueue_interplay _)
    · exact .refl s

/-- The channel at FAULT without bias (R23 to R25). -/
def faulted (c : ChannelNo) (s : State) : State := s.onChannel c (Channel.unbiased .fault)

/-- A channel that becomes FAULT is reported, and its condition handed on; the tester follows. -/
theorem faultChannel_eq (c : ChannelNo) (s : State) :
    faultChannel c s =
      testerFollow c (handCondition .channelFault (some c) (mouldFollow c (faulted c s)).timer.clock (mouldFollow c (faulted c s))) := rfl

theorem faulted_self (c : ChannelNo) (s : State) :
    (faulted c s).channel c =
      { state := .fault, settle := none, base := (s.channel c).base, detector := .idle, hit := none, lockout := none
        route := .correlator, armedNow := false, drive := none } :=
  State.channel_onChannel_self s c _

theorem faultChannel_interplay (c : ChannelNo) (s : State) : Interplay (faulted c s) (faultChannel c s) :=
  ((mouldFollow_interplay _ _).trans (handCondition_interplay _ _ _ _)).trans (testerFollow_interplay _ _)

theorem faultChannel_flag (c : ChannelNo) (s : State) : (faultChannel c s).xu.accruals.flags &&& flagBit 2 = flagBit 2 := by
  refine (testerFollow_interplay _ _).flags _ ?_
  rw [handCondition_accruals]
  exact or_and_self_right _ _

/-- A watched mould that uses the channel is DEGRADED (R109). -/
theorem faultChannel_degrades (mem : c ∈ s.mould.used) (w : watching s = true) : (faultChannel c s).mould.state = .degraded := by
  have fault : ((faulted c s).channel c).state = .fault := by rw [faulted_self]
  have followed : (mouldFollow c (faulted c s)).mould.state = .degraded := by
    rw [mouldFollow_of_used (s := faulted c s) mem, mouldDerive_of_watching (s := faulted c s) (watching_iff.1 w)]
    exact watchState_of_fault (s := faulted c s) mem fault
  have rest : Interplay (mouldFollow c (faulted c s)) (faultChannel c s) :=
    (handCondition_interplay _ _ _ _).trans (testerFollow_interplay _ _)
  have follow := mouldFollow_interplay c (faulted c s)
  refine rest.degraded c (follow.used.symm ▸ mem) ?_ followed
  rw [(mouldFollow_keeps c _).channel c, fault]

/-- Settles O22: a channel made FAULT is mute, so nothing that follows touches it. -/
theorem biasFaultsChannel : Obligations.BiasFaultsChannel := by
  have outcome (c : ChannelNo) (s u : State) (before : Interplay s u) :
      (faultChannel c u).channel c =
          { state := .fault, settle := none, base := (s.channel c).base, detector := .idle, hit := none, lockout := none
            route := .correlator, armedNow := false, drive := none }
        ∧ biasOn (faultChannel c u) c = false ∧ (faultChannel c u).xu.accruals.flags &&& flagBit 2 = flagBit 2
        ∧ (c ∈ s.mould.used → watching s = true → (faultChannel c u).mould.state = .degraded) := by
    have self : (faultChannel c u).channel c = _ :=
      ((faultChannel_interplay c u).mute c (by rw [faulted_self]; exact ⟨.inr rfl, rfl, rfl⟩)).trans (faulted_self c u)
    rw [before.base c] at self
    refine ⟨self, ?_, faultChannel_flag c u, fun mem w => faultChannel_degrades (before.used.symm ▸ mem) (before.watching w)⟩
    rw [biasOn, self]
  intro c ua i s hh command
  rcases command with ⟨rfl, state, settle, current⟩ | ⟨rfl, state⟩
  · have keeps := settleChannel_keeps c ua s
    obtain ⟨self, bias, flag, degrades⟩ := outcome c s s (.refl s)
    have run : settleChannel c ua s = faultChannel c s := if_neg (Nat.not_le.2 current)
    rw [run] at keeps
    exact ⟨_, (exec_settleExpiry hh state settle).trans (congrArg _ run), self, bias, flag, degrades, keeps.timer rfl, keeps.lines,
      keeps.latch, keeps.outside⟩
  · have keeps := overload_keeps c s
    obtain ⟨self, bias, flag, degrades⟩ := outcome c s _ (cutHit_idled_interplay false c s)
    have due : monitored c s = true := by rcases state with state | state <;> simp [monitored, hearing, state]
    exact ⟨overload c s, respond_of_due hh due, self, bias, flag, degrades, keeps.timer rfl, keeps.lines, keeps.latch, keeps.outside⟩

end Sys2Proof.Machine
end

section
/-! PROOF. Orders read from a cell: what the scan does around them, refusals, and the orders of the evidence table and the start of a
MOUNT (R100, R102, R110, R118, R132, R158 to R160). -/

namespace Sys2Proof.Machine

open Sys2Proof

variable {s t u : State} {k j : CellNo} {head : OrderHead} {owner : OrderRef → State → State} {r : OrderResult}

/-! ## Cells (R158) -/

@[simp] theorem putCell_cell_self (k : CellNo) (e : CellEntry) (s : State) : (s.putCell k e).xu.cells[k] = e :=
  Vector.getElem_set_self _

theorem putCell_cell_ne (h : j ≠ k) (e : CellEntry) (s : State) : (s.putCell k e).xu.cells[j] = s.xu.cells[j] :=
  Vector.getElem_set_ne k.isLt j.isLt fun eq => h (Fin.ext eq.symm)

/-- The scan has treated cells: its own state, the attention level and entries given back change, and nothing else. -/
structure Treated (s t : State) : Prop where
  rest : { t with xu := { t.xu with scan := s.xu.scan, cells := s.xu.cells, attn := s.xu.attn } } = s
  cells : ∀ k : CellNo, t.xu.cells[k] = s.xu.cells[k] ∨ (s.xu.cells[k] = .answered ∧ t.xu.cells[k] = .free)

theorem Treated.trans (h : Treated s t) (k : Treated t u) : Treated s u where
  rest := by rw [← h.rest, ← k.rest]
  cells c := by
    rcases h.cells c with h | ⟨h, h'⟩ <;> rcases k.cells c with k | ⟨k, k'⟩
    · exact .inl (k.trans h)
    · exact .inr ⟨h ▸ k, k'⟩
    · exact .inr ⟨h, k.trans h'⟩
    · rw [h'] at k
      cases k

theorem Treated.of_scan (h : { t with xu := { t.xu with scan := s.xu.scan, attn := s.xu.attn } } = s) : Treated s t where
  rest := by rw [← h]
  cells _ := .inl (by rw [← h])

theorem endScan_treated (s : State) : Treated s (endScan s) := by
  unfold endScan
  split <;> exact .of_scan rfl

theorem putCell_free_treated (h : s.xu.cells[k] = .answered) : Treated s (s.putCell k .free) where
  rest := rfl
  cells c := by
    by_cases same : c = k
    · subst same
      exact .inr ⟨h, putCell_cell_self _ _ _⟩
    · exact .inl (putCell_cell_ne same _ _)

theorem treatCells_treated (ks : List CellNo) (s : State) : Treated s (treatCells ks s) := by
  induction ks generalizing s with
  | nil => exact endScan_treated s
  | cons k ks ih =>
    unfold treatCells
    dsimp only
    split
    · exact .of_scan rfl
    · split
      next given =>
        simp only [Bool.and_eq_true, decide_eq_true_eq] at given
        exact (putCell_free_treated given.2).trans (ih _)
      · exact ih s

theorem treatBoard_treated (ks : List CellNo) (s : State) : Treated s (treatBoard ks s) :=
  (treatCells_treated ks s).trans (.of_scan rfl)

namespace Treated

theorem queue (h : Treated s t) : t.xu.queue = s.xu.queue := by rw [← h.rest]

theorem mirrorGeneration (h : Treated s t) : t.xu.mirrorGeneration = s.xu.mirrorGeneration := by rw [← h.rest]

theorem tester (h : Treated s t) : t.tester = s.tester := by rw [← h.rest]

theorem mould (h : Treated s t) : t.mould = s.mould := by rw [← h.rest]

theorem evid (h : Treated s t) : t.evid = s.evid := by rw [← h.rest]

theorem front (h : Treated s t) : t.front = s.front := by rw [← h.rest]

theorem corr (h : Treated s t) : t.corr = s.corr := by rw [← h.rest]

/-- An entry that no order has been answered from stands. -/
theorem cell (h : Treated s t) {e : CellEntry} (cell : s.xu.cells[k] = e) (ne : e ≠ .answered) : t.xu.cells[k] = e :=
  (h.cells k).elim (·.trans cell) fun answered => absurd (cell.symm.trans answered.1) ne

theorem outsideUnit (h : Treated s t) : { t with xu := s.xu } = s := by
  rw [← h.rest]

theorem unitOnly (h : Treated s t) (k : { s with xu := u.xu, freeNext := u.freeNext } = u) :
    { t with xu := u.xu, freeNext := u.freeNext } = u := by
  rw [← k, ← h.rest]

end Treated

/-! ## The run of an order (R158, R159) -/

/-- The order read from cell `k` is in hand. -/
def putInHand (k : CellNo) (head : OrderHead) (s : State) : State := s.putCell k (.inHand s.xu.takeNumber (some head))

theorem putInHand_cell (k : CellNo) (head : OrderHead) (s : State) :
    (putInHand k head s).xu.cells[k] = .inHand s.xu.takeNumber (some head) := putCell_cell_self _ _ _

theorem runOrder_eq (read : OrderRead s k) :
    runOrder head owner s = treatBoard (cellsAfter k) (owner (orderOf s k head.tag) (putInHand k head s)) := by
  obtain ⟨-, phase, going⟩ := read
  unfold runOrder
  simp [phase, going, putInHand]

theorem runOrder_treated (read : OrderRead s k) :
    Treated (owner (orderOf s k head.tag) (putInHand k head s)) (runOrder head owner s) := by
  rw [runOrder_eq read]
  exact treatBoard_treated _ _

/-- The result of the order in hand, while ACTIVE with room. -/
theorem giveResult_inHand_of_room (tag : Half) (ha : active s = true) (hq : queueRoom s = true) :
    giveResult (orderOf s k tag) r (putInHand k head s) = addJob (.result k s.xu.takeNumber head.notify r) (putInHand k head s) :=
  giveResult_of_room (s := putInHand k head s) (o := orderOf s k tag) (putInHand_cell k head s) ha hq

/-- An order whose owner only answers it is answered. -/
theorem runOrder_answered (read : OrderRead s k) (ha : active s = true) (hq : queueRoom s = true)
    (answers : owner (orderOf s k head.tag) (putInHand k head s) = giveResult (orderOf s k head.tag) r (putInHand k head s)) :
    Answered s k head r (runOrder head owner s) := by
  have treated := runOrder_treated (head := head) (owner := owner) read
  rw [answers, giveResult_inHand_of_room head.tag ha hq] at treated
  exact ⟨treated.cell (putInHand_cell k head s) nofun, treated.queue, treated.unitOnly rfl⟩

/-! ## Refusals (Tables 34 and 40, R100, R118, R132, R159) -/

theorem takeMount_of_refused {o : OrderRef} {offset : Nat} {fresh : Bool} (h : mountRefusal offset s = some r) :
    takeMount o offset fresh s = giveResult o r s := by rw [takeMount, h]

theorem mountRefusal_iff {offset : Nat} :
    mountRefusal offset s = some r ↔
      if s.mould.state ≠ .empty then r = .mounted
      else if mouldPresent s = false then r = .noMould
      else (offset % 8 ≠ 0 ∨ recordFits s.xu.geometry offset 8 = false) ∧ r = .areaBounds := by
  unfold mountRefusal
  cases mouldPresent s <;> cases recordFits s.xu.geometry offset 8 <;> by_cases state : s.mould.state = .empty <;>
    simp [state, eq_comm]

theorem takeTest_of_refused {a : TestArgs} {o : OrderRef} (fitted : pulserFitted s.variant = true) (h : testRefusal a s = some r) :
    takeTest a o s = giveResult o r s := by simp [takeTest, fitted, h]

theorem touches_iff {p : PathEntry} {c : ChannelNo} : p.touches c = true ↔ p.endA = c ∨ p.endB = c := by
  simp [PathEntry.touches]

theorem channelOf_fin (c : ChannelNo) : channelOf c.val = c := Fin.ext (Nat.mod_eq_of_lt c.isLt)

/-- A used channel has a number of its own. -/
theorem channelOf_of_used {a : TestArgs} (used : ¬ ∀ c ∈ s.mould.used, c.val ≠ a.source) :
    (s.mould.used.any fun c => decide (c.val = a.source)) = true ∧ (channelOf a.source).val = a.source := by
  simp only [not_forall, not_not] at used
  obtain ⟨c, mem, source⟩ := used
  refine ⟨List.any_eq_true.2 ⟨c, mem, decide_eq_true source⟩, ?_⟩
  rw [← source, channelOf_fin]

theorem testRefusal_of_table {a : TestArgs}
    (h : if watching s = false then r = .noMould
         else if ∀ c ∈ s.mould.used, c.val ≠ a.source then r = .badArgument .channel
         else if 100 < a.amplitude then r = .badArgument .amplitude
         else if 7 < a.level then r = .badArgument .level
         else if a.attempts = 0 ∨ 15 < a.attempts then r = .badArgument .attempts
         else if 255 < a.delay then r = .badArgument .delay
         else if ∀ p ∈ pathsOf s, p.endA.val ≠ a.source ∧ p.endB.val ≠ a.source then r = .badArgument .noPartner
         else 8 ≤ s.tester.length ∧ r = .badArgument .queueFull) : testRefusal a s = some r := by
  unfold testRefusal
  by_cases watched : watching s = false
  · rw [if_pos watched] at h
    simp [watched, h]
  rw [if_neg watched] at h
  rw [Bool.not_eq_false] at watched
  by_cases unused : ∀ c ∈ s.mould.used, c.val ≠ a.source
  · rw [if_pos unused] at h
    have none_used : (s.mould.used.any fun c => decide (c.val = a.source)) = false := by
      simpa using unused
    simp [watched, none_used, h]
  rw [if_neg unused] at h
  obtain ⟨used, source⟩ := channelOf_of_used unused
  have paths : ((pathsOf s).any fun p => p.touches (channelOf a.source)) = false ↔
      ∀ p ∈ pathsOf s, p.endA.val ≠ a.source ∧ p.endB.val ≠ a.source := by
    simp only [List.any_eq_false, touches_iff, Fin.ext_iff, source, not_or]
  simp only [watched, used, testCapacity, Bool.not_true, Bool.false_eq_true, if_false, Bool.not_eq_true', paths]
  split_ifs at h ⊢ <;> simp_all

theorem clearRefusal_iff {zone : Nat} :
    clearRefusal zone s = some r ↔
      if s.mould.state = .empty ∨ s.mould.state = .mounting ∨ s.mould.state = .dismounting then r = .noMould
      else zone ≠ 255 ∧ (zonesOf s).length ≤ zone ∧ r = .badArgument .zone := by
  unfold clearRefusal
  cases s.mould.state <;> simp [and_assoc, eq_comm]

/-- Settles O34. -/
theorem ordersRefused : Obligations.OrdersRefused := by
  intro k notify tag s read ha hq
  refine ⟨fun offset fresh r refused => ?_, fun noMould => ?_, fun source amplitude level attempts delay apply r refused => ?_,
    fun zone r refused => ?_, fun kind unknown => ?_⟩
  · refine ⟨_, respond_always read.1, runOrder_answered read ha hq ?_⟩
    exact takeMount_of_refused (s := putInHand k _ s) (mountRefusal_iff.2 refused)
  · refine ⟨_, respond_always read.1, runOrder_answered read ha hq ?_⟩
    rcases noMould with state | state <;> simp [takeDismount, putInHand, state]
  · refine ⟨_, respond_always read.1, runOrder_answered read ha hq ?_⟩
    cases variant : s.variant with
    | omplar0840 =>
      rw [variant, if_pos rfl] at refused
      simp [takeTest, putInHand, variant, pulserFitted, refused]
    | omplar1640 =>
      rw [variant, if_neg nofun] at refused
      exact takeTest_of_refused (s := putInHand k _ s) (by rw [putInHand, State.putCell_variant, variant]; rfl)
        (testRefusal_of_table refused)
  · refine ⟨_, respond_always read.1, runOrder_answered read ha hq ?_⟩
    rw [takeClear, (clearRefusal_iff (s := putInHand k _ s)).2 refused]
  · have due : unknownKind kind = true := by
      simp only [unknownKind, within, Bool.not_eq_true', Bool.and_eq_false_iff, decide_eq_false_iff_not]
      omega
    exact ⟨_, respond_of_due (due := fun _ => unknownKind kind) read.1 due, runOrder_answered read ha hq rfl⟩

/-! ## MOUNT accepted (R110, R111) -/

theorem takeMount_of_accepted {o : OrderRef} {offset : Nat} {fresh : Bool} (state : s.mould.state = .empty)
    (present : mouldPresent s = true) (aligned : offset % 8 = 0) (fits : recordFits s.xu.geometry offset 8 = true) :
    takeMount o offset fresh s = acceptMount o offset fresh s := by
  simp [takeMount, mountRefusal, state, present, aligned, fits]

/-- Settles O33. -/
theorem mountStartsReading : Obligations.MountStartsReading := by
  intro k notify fresh tag offset s read state present aligned fits
  have accepted := takeMount_of_accepted (s := putInHand k ⟨1, notify, tag⟩ s) (o := orderOf s k tag) (fresh := fresh) state present
    aligned fits
  have treated := runOrder_treated (head := ⟨1, notify, tag⟩) (owner := fun o => takeMount o offset fresh) read
  rw [accepted] at treated
  refine ⟨_, respond_always read.1, treated.mould.trans rfl, treated.cell (putInHand_cell k _ s) nofun, treated.queue, ?_⟩
  exact congrArg (fun u : State => { u with xu := s.xu, mould := s.mould }) treated.outsideUnit

/-! ## CLEAR_ZONE and RELEASE_STOP carried out (R100, R102) -/

theorem takeClear_of_allowed {o : OrderRef} {zone : Nat}
    (state : s.mould.state = .watching ∨ s.mould.state = .degraded ∨ s.mould.state = .suspended)
    (named : zone = 255 ∨ zone < (zonesOf s).length) :
    takeClear zone o s = requestMirror (giveResult o .ok (clearZones zone s)) := by
  have allowed : clearRefusal zone s = none := by
    have fits : ¬ (zone ≠ 255 ∧ (zonesOf s).length ≤ zone) := fun ⟨other, past⟩ => by omega
    unfold clearRefusal
    rcases state with state | state | state <;> simp only [state, if_neg fits]
  rw [takeClear, allowed]

theorem zonesOf_clearZones (zone : Nat) (s : State) :
    zonesOf (clearZones zone s) =
      if zone = 255 then (zonesOf s).map ZoneEntry.cleared else (zonesOf s).modify zone ZoneEntry.cleared :=
  zonesOf_onTables _ (fun zs => if zone = 255 then zs.map ZoneEntry.cleared else zs.modify zone ZoneEntry.cleared) s (fun _ => rfl)
    (by simp)

theorem zone_clearZones (zone i : Nat) (s : State) :
    (zonesOf (clearZones zone s))[i]? =
      if zone = 255 ∨ i = zone then (zonesOf s)[i]?.map ZoneEntry.cleared else (zonesOf s)[i]? := by
  rw [zonesOf_clearZones]
  by_cases all : zone = 255
  · rw [if_pos all, if_pos (.inl all), List.getElem?_map]
  · rw [if_neg all, List.getElem?_modify]
    by_cases named : i = zone
    · simp [named]
    · simp [named, all, Ne.symm named]

theorem pathsOf_clearZones (zone : Nat) (s : State) : pathsOf (clearZones zone s) = pathsOf s :=
  pathsOf_onTables _ id s (fun _ => rfl) rfl

theorem mirrorOf_congr (h : { t with xu := s.xu, freeNext := s.freeNext } = s) (g : Word) : mirrorOf g t = mirrorOf g s := by
  rw [← h]
  rfl

/-- An OK given, with a mirror after it where there is room for both. -/
theorem mirroredOk_of_room {o : OrderRef} {e : Option OrderHead} (cell : s.xu.cells[o.cell] = .inHand o.take e)
    (ha : active s = true) (hq : s.xu.queue.length + 1 < 16) :
    requestMirror (giveResult o r s) =
      addJob (.mirror (mirrorOf (s.xu.mirrorGeneration + 1) s))
        ((addJob (.result o.cell o.take (notifyOf e) r) s).onXu fun x => { x with mirrorGeneration := s.xu.mirrorGeneration + 1 }) := by
  rw [giveResult_of_room cell ha (queueRoom_iff.2 (Nat.lt_of_succ_lt hq))]
  exact requestMirror_of_room (s := addJob _ s) ha (queueRoom_iff.2 (lt_of_eq_of_lt (List.length_append.trans rfl) hq))

/-- An OK that takes the last place has no mirror after it. -/
theorem mirroredOk_of_last_room {o : OrderRef} {e : Option OrderHead} (cell : s.xu.cells[o.cell] = .inHand o.take e)
    (ha : active s = true) (hq : queueRoom s = true) (last : 16 ≤ s.xu.queue.length + 1) :
    requestMirror (giveResult o r s) = addJob (.result o.cell o.take (notifyOf e) r) s := by
  rw [giveResult_of_room cell ha hq]
  refine requestMirror_of_no_room (.inr (Bool.eq_false_iff.2 fun room => ?_))
  have length := queueRoom_iff.1 room
  rw [addJob_queue, List.length_append, List.length_singleton] at length
  omega

theorem mirroredOk_of_full {o : OrderRef} {e : Option OrderHead} (cell : s.xu.cells[o.cell] = .inHand o.take e)
    (ha : active s = true) (hq : queueRoom s = false) :
    requestMirror (giveResult o r s) = s.putCell o.cell (.resultWaiting o.take e r) := by
  rw [giveResult_of_full cell ha hq]
  exact requestMirror_of_no_room (.inr hq)

theorem mirroredOk_of_not_active {o : OrderRef} {e : Option OrderHead} (cell : s.xu.cells[o.cell] = .inHand o.take e)
    (ha : active s = false) : requestMirror (giveResult o r s) = s.putCell o.cell .free := by
  rw [giveResult_of_not_active cell ha]
  exact requestMirror_of_no_room (.inl ha)

/-- What an order of the evidence table can change, with the scan that runs it. -/
def evidenceOrder : Parts := { evid := true, tables := true, unit := true }

theorem takeClear_keeps (zone : Nat) (o : OrderRef) (s : State) : Keeps evidenceOrder s (takeClear zone o s) := by
  unfold takeClear
  split
  · exact giveResult_keeps _ _ _
  · exact ((clearZones_keeps zone s).mono rfl).trans ((giveResult_keeps _ _ _).trans (requestMirror_keeps _))

theorem takeRelease_keeps (o : OrderRef) (s : State) : Keeps evidenceOrder s (takeRelease o s) :=
  ((onEvid_keeps _ _).mono rfl).trans (giveResult_keeps _ _ _)

/-- What a cell and the queue hold after an order read from the cell is answered `r`, with a mirror after it where there is room for
both, and the scan has gone on. -/
theorem treated_mirrored (cell : u.xu.cells[k] = .inHand u.xu.takeNumber (some head))
    (treated : Treated (requestMirror (giveResult (orderOf u k head.tag) r u)) t) :
    (active u = true → queueRoom u = true →
        t.xu.cells[k] = .inHand u.xu.takeNumber (some head)
        ∧ (u.xu.queue.length + 1 < 16 →
            t.xu.queue = u.xu.queue ++ [resultJob u k head.notify r, jobOf u 1 (.mirror (mirrorOf (u.xu.mirrorGeneration + 1) t))]
            ∧ t.xu.mirrorGeneration = u.xu.mirrorGeneration + 1)
        ∧ (16 ≤ u.xu.queue.length + 1 →
            t.xu.queue = u.xu.queue ++ [resultJob u k head.notify r] ∧ t.xu.mirrorGeneration = u.xu.mirrorGeneration))
      ∧ (active u = true → queueRoom u = false →
          t.xu.queue = u.xu.queue ∧ t.xu.mirrorGeneration = u.xu.mirrorGeneration
          ∧ t.xu.cells[k] = .resultWaiting u.xu.takeNumber (some head) r)
      ∧ (active u = false →
          t.xu.queue = u.xu.queue ∧ t.xu.mirrorGeneration = u.xu.mirrorGeneration ∧ t.xu.cells[k] = .free) := by
  refine ⟨fun ha hq => ⟨?_, fun room => ?_, fun last => ?_⟩, fun ha hq => ?_, fun ha => ?_⟩
  · by_cases room : u.xu.queue.length + 1 < 16
    · rw [mirroredOk_of_room (o := orderOf u k head.tag) cell ha room] at treated
      exact treated.cell cell nofun
    · rw [mirroredOk_of_last_room (o := orderOf u k head.tag) cell ha hq (Nat.not_lt.1 room)] at treated
      exact treated.cell cell nofun
  · rw [mirroredOk_of_room (o := orderOf u k head.tag) cell ha room] at treated
    rw [mirrorOf_congr (s := u) (treated.unitOnly rfl)]
    exact ⟨treated.queue.trans (List.append_assoc _ _ _), treated.mirrorGeneration⟩
  · rw [mirroredOk_of_last_room (o := orderOf u k head.tag) cell ha hq last] at treated
    exact ⟨treated.queue, treated.mirrorGeneration⟩
  · rw [mirroredOk_of_full (o := orderOf u k head.tag) cell ha hq] at treated
    exact ⟨treated.queue, treated.mirrorGeneration, treated.cell (putCell_cell_self _ _ _) nofun⟩
  · rw [mirroredOk_of_not_active (o := orderOf u k head.tag) cell ha] at treated
    exact ⟨treated.queue, treated.mirrorGeneration, treated.cell (putCell_cell_self _ _ _) nofun⟩

/-- The same with no mirror. -/
theorem treated_result (cell : u.xu.cells[k] = .inHand u.xu.takeNumber (some head))
    (treated : Treated (giveResult (orderOf u k head.tag) r u) t) :
    (active u = true → queueRoom u = true →
        t.xu.queue = u.xu.queue ++ [resultJob u k head.notify r] ∧ t.xu.cells[k] = .inHand u.xu.takeNumber (some head))
      ∧ (active u = true → queueRoom u = false →
          t.xu.queue = u.xu.queue ∧ t.xu.cells[k] = .resultWaiting u.xu.takeNumber (some head) r)
      ∧ (active u = false → t.xu.queue = u.xu.queue ∧ t.xu.cells[k] = .free) := by
  refine ⟨fun ha hq => ?_, fun ha hq => ?_, fun ha => ?_⟩
  · rw [giveResult_of_room (o := orderOf u k head.tag) cell ha hq] at treated
    exact ⟨treated.queue, treated.cell cell nofun⟩
  · rw [giveResult_of_full (o := orderOf u k head.tag) cell ha hq] at treated
    exact ⟨treated.queue, treated.cell (putCell_cell_self _ _ _) nofun⟩
  · rw [giveResult_of_not_active (o := orderOf u k head.tag) cell ha] at treated
    exact ⟨treated.queue, treated.cell (putCell_cell_self _ _ _) nofun⟩

/-- Settles O31. -/
theorem evidenceOrdersCarriedOut : Obligations.EvidenceOrdersCarriedOut := by
  intro k notify tag s read
  refine ⟨fun zone state named => ?_, ?_⟩
  · have carried := takeClear_of_allowed (s := putInHand k ⟨4, notify, tag⟩ s) (o := orderOf s k tag) state named
    have treated := runOrder_treated (head := ⟨4, notify, tag⟩) (owner := takeClear zone) read
    rw [carried] at treated
    have requests : Keeps exchangeOnly (clearZones zone (putInHand k ⟨4, notify, tag⟩ s)) _ :=
      (giveResult_keeps (orderOf s k tag) .ok _).trans (requestMirror_keeps _)
    have evid := treated.evid.trans (requests.evid rfl)
    obtain ⟨room, full, inactive⟩ :=
      treated_mirrored (u := clearZones zone (putInHand k ⟨4, notify, tag⟩ s)) (putInHand_cell k ⟨4, notify, tag⟩ s) treated
    have keeps := runOrder_keeps ⟨4, notify, tag⟩ (takeClear zone) (takeClear_keeps zone) rfl s
    refine ⟨_, respond_always read.1, fun i => ?_, ?_, ?_, ?_, room, full, inactive, keeps.timer rfl, keeps.front rfl, keeps.corr rfl,
      keeps.mould rfl, keeps.tester rfl, keeps.lines, keeps.outside⟩
    · rw [zonesOf_congr evid]
      exact zone_clearZones zone i _
    · rw [pathsOf_congr evid]
      exact pathsOf_clearZones zone _
    · rw [evid]
      rfl
    · rw [evid]
      rfl
  · have treated := runOrder_treated (head := ⟨5, notify, tag⟩) (owner := takeRelease) read
    have requests : Keeps exchangeOnly (releaseLatch (putInHand k ⟨5, notify, tag⟩ s)) _ := giveResult_keeps (orderOf s k tag) .ok _
    have evid := treated.evid.trans (requests.evid rfl)
    obtain ⟨room, full, inactive⟩ :=
      treated_result (u := releaseLatch (putInHand k ⟨5, notify, tag⟩ s)) (putInHand_cell k ⟨5, notify, tag⟩ s) treated
    have keeps := runOrder_keeps ⟨5, notify, tag⟩ takeRelease takeRelease_keeps rfl s
    refine ⟨_, respond_always read.1, evid, ?_, room, full, inactive, keeps.timer rfl, keeps.front rfl, keeps.corr rfl,
      keeps.mould rfl, keeps.tester rfl, keeps.lines, keeps.outside⟩
    rw [stopreq, evid]
    exact Bool.and_false _

end Sys2Proof.Machine
end

section
/-! PROOF. The mould leaves, bias is taken off, and a MOUNT ends without a mould or goes through its reads (R25, R104, R111 to R116,
R118, R120). -/

namespace Sys2Proof.Machine

open Sys2Proof

variable {s t u : State} {c d : ChannelNo}

/-! ## Leaving (R104, R120) -/

/-- One change made to several channels in turn, which making it twice does not change. -/
theorem foldl_onChannel_channel {f : Channel → Channel} (idem : ∀ ch, f (f ch) = f ch) (cs : List ChannelNo) (s : State)
    (d : ChannelNo) :
    (cs.foldl (fun s c => s.onChannel c f) s).channel d = if d ∈ cs then f (s.channel d) else s.channel d := by
  induction cs generalizing s with
  | nil => simp
  | cons c cs ih =>
    rw [List.foldl_cons, ih]
    by_cases same : d = c
    · subst same
      simp [idem]
    · rw [State.channel_onChannel_ne s same]
      simp [same]

theorem foldl_onChannel_frame (f : Channel → Channel) (cs : List ChannelNo) (s : State) :
    { cs.foldl (fun s c => s.onChannel c f) s with front := s.front } = s := by
  induction cs generalizing s with
  | nil => rfl
  | cons c cs ih => exact congrArg (fun u : State => { u with front := s.front }) (ih (s.onChannel c f))

theorem unsetThresholds_channel (s : State) (c : ChannelNo) : (unsetThresholds s).channel c = { s.channel c with base := none } :=
  (foldl_onChannel_channel (f := fun ch => { ch with base := none }) (fun _ => rfl) allChannels s c).trans
    (if_pos (mem_allChannels c))

theorem leaveMould_channel (s : State) (c : ChannelNo) : (leaveMould s).channel c = { s.channel c with base := none } :=
  unsetThresholds_channel (discardTables s) c

theorem unsetThresholds_frame (s : State) : { unsetThresholds s with front := s.front } = s :=
  foldl_onChannel_frame (fun ch => { ch with base := none }) allChannels s

/-- Leaving changes the channels, the evidence table and the mould manager. -/
theorem leaveMould_frame (s : State) : { leaveMould s with front := s.front, evid := s.evid, mould := s.mould } = s := by
  have unset := congrArg (fun u : State => { u with evid := s.evid, mould := s.mould }) (unsetThresholds_frame (discardTables s))
  unfold leaveMould
  generalize unsetThresholds (discardTables s) = u at unset ⊢
  exact unset

theorem leaveMould_xu (s : State) : (leaveMould s).xu = s.xu := by conv_rhs => rw [← leaveMould_frame s]

theorem leaveMould_freeNext (s : State) : (leaveMould s).freeNext = s.freeNext := by conv_rhs => rw [← leaveMould_frame s]

theorem leaveMould_order (s : State) : (leaveMould s).mould.order = s.mould.order := by
  rw [leaveMould, State.onMould_mould, (unsetThresholds_keeps _).mould rfl]
  rfl

theorem leaveMould_left (s : State) : MouldLeft (leaveMould s) := by
  have evid : (leaveMould s).evid.tables = none := by
    rw [leaveMould, State.onMould_evid, (unsetThresholds_keeps _).evid rfl]
    rfl
  exact ⟨rfl, rfl, rfl, rfl, rfl, rfl, rfl, rfl, evid, fun c => by rw [leaveMould_channel]⟩

/-- No mould is a fact about the channels, the tables and the mould manager. -/
theorem mouldLeft_congr (hf : t.front = s.front) (he : t.evid = s.evid) (hm : t.mould = s.mould) (h : MouldLeft s) : MouldLeft t := by
  have channel (c : ChannelNo) : t.channel c = s.channel c := by rw [State.channel, State.channel, hf]
  simpa only [MouldLeft, hm, he, channel] using h

theorem Keeps.mouldLeft {p : Parts} (k : Keeps p s t) (h : MouldLeft s) (w : p.front = false := by rfl) (w' : p.evid = false := by rfl)
    (w'' : p.mould = false := by rfl) : MouldLeft t := mouldLeft_congr (k.front w) (k.evid w') (k.mould w'') h

theorem endOrder_left (r : OrderResult) (s : State) : MouldLeft (endOrder r s) ∧ (endOrder r s).mould.order = .none := by
  have left := (answerOrder_keeps (p := exchangeOnly) r (leaveMould s)).mouldLeft (leaveMould_left s)
  exact ⟨left, rfl⟩

theorem endOrder_channel (r : OrderResult) (s : State) (c : ChannelNo) :
    (endOrder r s).channel c = { s.channel c with base := none } :=
  ((answerOrder_keeps (p := exchangeOnly) r (leaveMould s)).channel c).trans (leaveMould_channel s c)

/-- With room, the order of a MOUNT that ends gets its result's job. -/
theorem endOrder_queue {o : OrderRef} {head : Option OrderHead} {r : OrderResult} (order : s.mould.order = .mount o)
    (cell : s.xu.cells[o.cell] = .inHand o.take head) (ha : active s = true) (hq : queueRoom s = true) :
    (endOrder r s).xu.queue = s.xu.queue ++
      [{ base := baseOf s, seed := s.freeNext, body := .result o.cell o.take (notifyOf head) r }] := by
  have xu := leaveMould_xu s
  have given : answerOrder r (leaveMould s) = addJob (.result o.cell o.take (notifyOf head) r) (leaveMould s) := by
    rw [answerOrder, leaveMould_order, order]
    exact giveResult_of_room (by rw [xu, cell]) (by rw [active, xu]; exact ha) (by rw [queueRoom, xu]; exact hq)
  rw [endOrder, given, dropOrder, State.onMould_xu, addJob_queue, jobOf, baseOf, leaveMould_freeNext, xu]
  rfl

/-! ## Bias off (R25) -/

theorem biasOff1_self (c : ChannelNo) (s : State) : ((biasOff1 c s).channel c).state = .off := by
  unfold biasOff1
  dsimp only
  split
  · assumption
  · rw [(mouldFollow_keeps c _).channel c, State.channel_onChannel_self]
    rfl

/-- A channel that is OFF stays so. -/
theorem biasOff1_off (h : (s.channel d).state = .off) (c : ChannelNo) : ((biasOff1 c s).channel d).state = .off := by
  by_cases same : d = c
  · subst same
    exact biasOff1_self d s
  · have cut : ((cutHit false Channel.idled c s).channel d).state = .off :=
      ((cutHit_idled_interplay false c s).down d (.inl h)).trans h
    unfold biasOff1
    dsimp only
    split
    · exact cut
    · rw [(mouldFollow_keeps c _).channel d, State.channel_onChannel_ne _ same]
      exact cut

theorem foldl_biasOff1_off (cs : List ChannelNo) (s : State) (h : d ∈ cs ∨ (s.channel d).state = .off) :
    ((cs.foldl (fun s c => biasOff1 c s) s).channel d).state = .off := by
  induction cs generalizing s with
  | nil => exact h.resolve_left List.not_mem_nil
  | cons c cs ih =>
    refine ih _ ?_
    rcases h with mem | off
    · rcases List.mem_cons.1 mem with rfl | mem
      · exact .inr (biasOff1_self d s)
      · exact .inl mem
    · exact .inr (biasOff1_off off c)

theorem biasOffUsed_off (s : State) (h : c ∈ s.mould.used) : ((biasOffUsed s).channel c).state = .off :=
  foldl_biasOff1_off _ s (.inl h)

/-- Channels change, and with the reports of their states no more of the mould manager than WATCHING and DEGRADED. -/
structure ChannelsOnly (s t : State) : Prop where
  rest : { t with front := s.front, mould := s.mould } = s
  mould : t.mould = { s.mould with state := t.mould.state }
  unwatched : watching s = false → t.mould = s.mould

namespace ChannelsOnly

theorem refl (s : State) : ChannelsOnly s s := ⟨rfl, rfl, fun _ => rfl⟩

theorem trans (h : ChannelsOnly s t) (k : ChannelsOnly t u) : ChannelsOnly s u where
  rest := (congrArg (fun v : State => { v with front := s.front, mould := s.mould }) k.rest).trans h.rest
  mould := by
    rw [k.mould, h.mould]
  unwatched e := by
    have still := h.unwatched e
    exact (k.unwatched ((watching_congr still).trans e)).trans still

theorem xu (h : ChannelsOnly s t) : t.xu = s.xu := by conv_rhs => rw [← h.rest]

theorem corr (h : ChannelsOnly s t) : t.corr = s.corr := by conv_rhs => rw [← h.rest]

theorem evid (h : ChannelsOnly s t) : t.evid = s.evid := by conv_rhs => rw [← h.rest]

theorem tester (h : ChannelsOnly s t) : t.tester = s.tester := by conv_rhs => rw [← h.rest]

theorem freeNext (h : ChannelsOnly s t) : t.freeNext = s.freeNext := by conv_rhs => rw [← h.rest]

theorem used (h : ChannelsOnly s t) : t.mould.used = s.mould.used := by rw [h.mould]

end ChannelsOnly

/-- While a used channel of an unwatched mould has not settled, a report changes nothing. -/
theorem mouldDerive_of_unsettled (mem : c ∈ s.mould.used) (waits : settled s c = false) (unwatched : watching s = false) :
    mouldDerive s = s := by
  have unsettled : allSettled s = false := Bool.eq_false_iff.2 fun all => by
    simpa [waits] using List.all_eq_true.1 all c mem
  unfold mouldDerive
  cases state : s.mould.state with
  | watching | degraded => simp [watching, state] at unwatched
  | mounting | suspended | empty | dismounting => simp [unsettled]

/-- A used channel that has not settled is reported. -/
theorem reported_channelsOnly {f : Channel → Channel} (mem : c ∈ s.mould.used)
    (waits : settled (s.onChannel c f) c = false) : ChannelsOnly s (mouldFollow c (s.onChannel c f)) := by
  rw [mouldFollow_of_used (s := s.onChannel c f) mem]
  by_cases w : watching s = true
  · rw [mouldDerive_of_watching (s := s.onChannel c f) (watching_iff.1 w)]
    exact ⟨rfl, rfl, fun unwatched => by simp [w] at unwatched⟩
  · rw [Bool.not_eq_true] at w
    rw [mouldDerive_of_unsettled (s := s.onChannel c f) mem waits w]
    exact ⟨rfl, rfl, fun _ => rfl⟩

theorem onChannel_noHit_of_none {f : Channel → Channel} (c : ChannelNo) (h : (f (s.channel c)).hit = none) (quiet : NoHit s) :
    NoHit (s.onChannel c f) := fun d => by
  by_cases same : d = c
  · subst same
    rw [State.channel_onChannel_self, h]
  · rw [State.channel_onChannel_ne s same, quiet d]

/-- With no hit open, taking the bias off a used channel cuts nothing. -/
theorem biasOff1_channelsOnly (quiet : NoHit s) (mem : c ∈ s.mould.used) :
    ChannelsOnly s (biasOff1 c s) ∧ NoHit (biasOff1 c s) := by
  have uncut : cutHit false Channel.idled c s = s := by simp [cutHit, quiet c]
  unfold biasOff1
  dsimp only
  rw [uncut]
  split
  · exact ⟨.refl s, quiet⟩
  · refine ⟨reported_channelsOnly mem ?_, noHit_of_front ((mouldFollow_keeps c _).front rfl) (onChannel_noHit_of_none c rfl quiet)⟩
    rw [settled, State.channel_onChannel_self]
    rfl

theorem foldl_biasOff1_channelsOnly (cs : List ChannelNo) (s : State) (quiet : NoHit s) (used : ∀ c ∈ cs, c ∈ s.mould.used) :
    ChannelsOnly s (cs.foldl (fun s c => biasOff1 c s) s) ∧ NoHit (cs.foldl (fun s c => biasOff1 c s) s) := by
  induction cs generalizing s with
  | nil => exact ⟨.refl s, quiet⟩
  | cons c cs ih =>
    obtain ⟨first, quiet'⟩ := biasOff1_channelsOnly quiet (used c List.mem_cons_self)
    obtain ⟨rest, quiet''⟩ := ih _ quiet' fun d mem => first.used.symm ▸ used d (List.mem_cons_of_mem _ mem)
    exact ⟨first.trans rest, quiet''⟩

theorem biasOffUsed_channelsOnly (quiet : NoHit s) : ChannelsOnly s (biasOffUsed s) ∧ NoHit (biasOffUsed s) :=
  foldl_biasOff1_channelsOnly _ s quiet fun _ h => h

/-! ## Bias on (R22) -/

/-- The record of a channel that is asked for bias: an OFF or FAULT one is SETTLING. -/
def biasedChannel (code : Nat) (ch : Channel) : Channel :=
  if ch.state = .off ∨ ch.state = .fault then { ch with state := .settling, settle := some (settleTicks code) } else ch

theorem biasOn1_channelsOnly {code : Nat} (mem : c ∈ s.mould.used) :
    ChannelsOnly s (biasOn1 code c s) ∧ (biasOn1 code c s).channel c = biasedChannel code (s.channel c)
      ∧ ∀ d : ChannelNo, d ≠ c → (biasOn1 code c s).channel d = s.channel d := by
  unfold biasOn1 biasedChannel
  cases state : (s.channel c).state with
  | off | fault =>
    refine ⟨reported_channelsOnly mem ?_, ?_, fun d ne => ?_⟩
    · rw [settled, State.channel_onChannel_self]
    · rw [(mouldFollow_keeps c _).channel c, State.channel_onChannel_self]
      rfl
    · rw [(mouldFollow_keeps c _).channel d, State.channel_onChannel_ne s ne]
  | settling | live | pulsing => exact ⟨.refl s, rfl, fun _ _ => rfl⟩

theorem biasedChannel_twice (code : Nat) (ch : Channel) : biasedChannel code (biasedChannel code ch) = biasedChannel code ch := by
  unfold biasedChannel
  split <;> simp_all

theorem foldl_biasOn1 (code : Nat) (cs : List ChannelNo) (s : State) (used : ∀ c ∈ cs, c ∈ s.mould.used) :
    ChannelsOnly s (cs.foldl (fun s c => biasOn1 code c s) s)
      ∧ ∀ d : ChannelNo, (cs.foldl (fun s c => biasOn1 code c s) s).channel d =
          if d ∈ cs then biasedChannel code (s.channel d) else s.channel d := by
  induction cs generalizing s with
  | nil => exact ⟨.refl s, fun d => by simp⟩
  | cons c cs ih =>
    obtain ⟨first, self, others⟩ := biasOn1_channelsOnly (code := code) (used c List.mem_cons_self)
    obtain ⟨rest, channel⟩ := ih _ fun d mem => first.used.symm ▸ used d (List.mem_cons_of_mem _ mem)
    refine ⟨first.trans rest, fun d => ?_⟩
    rw [List.foldl_cons, channel]
    by_cases same : d = c
    · subst same
      simp [self, biasedChannel_twice]
    · simp [others d same, same]

/-- Bias-on requests to every used channel. -/
theorem biasOnUsed_channels (s : State) :
    ChannelsOnly s (biasOnUsed s)
      ∧ ∀ d : ChannelNo, (biasOnUsed s).channel d =
          if d ∈ s.mould.used then biasedChannel s.mould.settleCode (s.channel d) else s.channel d :=
  foldl_biasOn1 _ _ s fun _ h => h

/-! ## A MOUNT ends without a mould (R115, R118) -/

theorem cancelMount_left (o : OrderRef) (s : State) :
    MouldLeft (cancelMount o s) ∧ (cancelMount o s).mould.order = .none
      ∧ ∀ c ∈ s.mould.used, ((cancelMount o s).channel c).state = .off := by
  have requests : Keeps exchangeOnly (endOrder .cancelled (biasOffUsed s)) (cancelMount o s) :=
    (giveResult_keeps _ _ _).trans (requestMirror_keeps _)
  obtain ⟨left, order⟩ := endOrder_left .cancelled (biasOffUsed s)
  refine ⟨requests.mouldLeft left, (congrArg MouldManager.order (requests.mould rfl)).trans order, fun c mem => ?_⟩
  rw [requests.channel c, endOrder_channel]
  exact biasOffUsed_off s mem

theorem exec_mountTimerExpiry (hh : held s = false) (state : s.mould.state = .mounting) (phase : s.mould.phase = .clampWait)
    (timer : s.mould.timer = some 0) : exec .mountTimerExpiry s = .next (mountTimeout s) :=
  respond_of_due hh (mountTimerDue_iff.2 ⟨state, phase, timer⟩)

/-- Settles O36. -/
theorem mountEndsWithoutMould : Obligations.MountEndsWithoutMould := by
  intro i s mounting command
  rcases command with ⟨k, notify, tag, read, rfl⟩ | ⟨hh, phase, timer, rfl⟩
  · have cancels : takeDismount (orderOf s k tag) (putInHand k ⟨2, notify, tag⟩ s) =
        cancelMount (orderOf s k tag) (putInHand k ⟨2, notify, tag⟩ s) := by
      rw [takeDismount, show (putInHand k ⟨2, notify, tag⟩ s).mould.state = .mounting from mounting]
    have treated := runOrder_treated (head := ⟨2, notify, tag⟩) (owner := takeDismount) read
    rw [cancels] at treated
    have keeps := runOrder_keeps ⟨2, notify, tag⟩ takeDismount (p := { sounding with unit := true })
      (fun o s => (takeDismount_keeps o s).mono rfl) rfl s
    obtain ⟨left, order, off⟩ := cancelMount_left (orderOf s k tag) (putInHand k ⟨2, notify, tag⟩ s)
    refine ⟨_, respond_always read.1, mouldLeft_congr treated.front treated.evid treated.mould left,
      (congrArg MouldManager.order treated.mould).trans order, fun c mem => ?_, keeps.timer rfl, keeps.lines, keeps.latch, keeps.outside,
      nofun⟩
    rw [State.channel, treated.front]
    exact off c mem
  · have keeps := mountTimeout_keeps s
    obtain ⟨left, order⟩ := endOrder_left .clampTimeout (biasOffUsed s)
    refine ⟨_, exec_mountTimerExpiry hh mounting phase timer, left, order, fun c mem => ?_, keeps.timer rfl, keeps.lines, keeps.latch,
      keeps.outside, fun o head _ quiet order cell ha hq => ?_⟩
    · rw [mountTimeout, endOrder_channel]
      exact biasOffUsed_off s mem
    · obtain ⟨removed, -⟩ := biasOffUsed_channelsOnly quiet
      have unwatched : watching s = false := by simp [watching, mounting]
      rw [mountTimeout, endOrder_queue (s := biasOffUsed s) (by rw [removed.unwatched unwatched, order]) (by rw [removed.xu, cell])
        (by rw [active, removed.xu]; exact ha) (by rw [queueRoom, removed.xu]; exact hq), baseOf, removed.xu, removed.freeNext]
      rfl

/-! ## The reads of a MOUNT (R111 to R116) -/

/-- A MOUNT's read is answered by its bytes. -/
theorem takeRead_of_reading {kind : MountRead} {f : State → State} (read : s.mould.read = kind) : takeRead kind f s = f s := if_pos read

theorem readAnswered_of_reading {kind : MountRead} {bytes : List Byte} (read : s.mould.read = kind)
    (length : bytes.length = readLength kind s.mould.fixed) : readAnswered kind bytes s = true := by
  rw [readAnswered, if_pos read, decide_eq_true length]

/-- The read is over. -/
def readOver (s : State) : State := s.onMould fun m => { m with read := .none }

theorem exec_fixedRead {bytes : List Byte} (hh : held s = false) (read : s.mould.read = .fixed) (length : bytes.length = 8) :
    exec (.mountFixedReadDone bytes) s = .next (takeFixed (parseFixed bytes) s) :=
  (respond_of_due hh (readAnswered_of_reading read length)).trans (congrArg _ (takeRead_of_reading read))

theorem exec_descriptionRead {bytes : List Byte} {f : FixedPart} (hh : held s = false) (read : s.mould.read = .description)
    (fixed : s.mould.fixed = some f) (length : bytes.length = descriptionBytes f) :
    exec (.mountDescriptionReadDone bytes) s = .next (takeDescription (parseDescription f bytes) s) := by
  refine (respond_of_due hh (readAnswered_of_reading read ?_)).trans ((congrArg _ (takeRead_of_reading read)).trans ?_)
  · rw [fixed, length]
    rfl
  · rw [fixed]

theorem exec_contextRead {bytes : List Byte} {f : FixedPart} (hh : held s = false) (read : s.mould.read = .context)
    (fixed : s.mould.fixed = some f) (length : bytes.length = contextBytes f.pathCount f.zoneCount) :
    exec (.mountContextReadDone bytes) s = .next (takeContext (parseContext f.pathCount f.zoneCount bytes) s) := by
  refine (respond_of_due hh (readAnswered_of_reading read ?_)).trans ((congrArg _ (takeRead_of_reading read)).trans ?_)
  · rw [fixed, length]
    rfl
  · rw [fixed]

/-- Settles O37. -/
theorem fixedPartRead : Obligations.FixedPartRead := by
  intro bytes f s hh read length hf
  rw [exec_fixedRead hh read length, show parseFixed bytes = f from hf.symm]
  refine ⟨fun fits => ?_, fun past => ?_⟩
  · rw [takeFixed]
    exact congrArg _ (if_pos fits)
  · have ends : takeFixed f s = endOrder .areaBounds (readOver s) := by
      rw [takeFixed]
      exact if_neg (Bool.eq_false_iff.1 past)
    have keeps := takeFixed_keeps f s
    obtain ⟨left, order⟩ := endOrder_left .areaBounds (readOver s)
    refine ⟨_, rfl, ends ▸ left, ends ▸ order, keeps.timer rfl, keeps.corr rfl, keeps.tester rfl, keeps.lines, keeps.latch,
      keeps.outside, fun o head hasOrder cell ha hq => ?_⟩
    rw [ends]
    exact endOrder_queue (s := readOver s) hasOrder cell ha hq

/-! ### Waiting for the clamp (R115) -/

/-- Entering CLAMP_WAIT: bias is asked for at once with the clamp locked, and the mount timer starts otherwise. -/
theorem enterClampWait_of_locked (h : clampLocked s = true) :
    ChannelsOnly (s.onMould fun m => { m with phase := .settling, timer := none }) (enterClampWait s)
      ∧ ∀ d : ChannelNo, (enterClampWait s).channel d =
          if d ∈ s.mould.used then biasedChannel s.mould.settleCode (s.channel d) else s.channel d := by
  rw [enterClampWait, if_pos h]
  exact biasOnUsed_channels (s.onMould fun m => { m with phase := .settling, timer := none })

theorem enterClampWait_of_unlocked (h : clampLocked s = false) :
    enterClampWait s = s.onMould fun m => { m with phase := .clampWait, timer := some (m.mountTimeout * 10000000) } := by
  rw [enterClampWait, if_neg (by simp [h]), startMountTimer]
  simp only [ticksPerMillisecond, Nat.mul_assoc]

/-- The phase and the timer on entering CLAMP_WAIT. -/
theorem enterClampWait_enters (s : State) :
    (clampLocked s = true → (enterClampWait s).mould.phase = .settling ∧ (enterClampWait s).mould.timer = none)
      ∧ (clampLocked s = false → (enterClampWait s).mould.phase = .clampWait
          ∧ (enterClampWait s).mould.timer = some (s.mould.mountTimeout * 10000000)
          ∧ (enterClampWait s).front = s.front ∧ (enterClampWait s).xu = s.xu) := by
  refine ⟨fun locked => ?_, fun unlocked => ?_⟩
  · rw [(enterClampWait_of_locked locked).1.mould]
    exact ⟨rfl, rfl⟩
  · rw [enterClampWait_of_unlocked unlocked]
    exact ⟨rfl, rfl, rfl, rfl⟩

/-- What entering CLAMP_WAIT leaves of the mould manager's record and the tables. -/
theorem enterClampWait_frame (s : State) :
    (enterClampWait s).evid = s.evid ∧ (enterClampWait s).mould.used = s.mould.used
      ∧ (enterClampWait s).mould = { s.mould with
          state := (enterClampWait s).mould.state, phase := (enterClampWait s).mould.phase, timer := (enterClampWait s).mould.timer }
      ∧ ∀ d : ChannelNo, ((enterClampWait s).channel d).base = (s.channel d).base
          ∧ (d ∉ s.mould.used → (enterClampWait s).channel d = s.channel d) := by
  cases locked : clampLocked s with
  | false =>
    rw [enterClampWait_of_unlocked locked]
    exact ⟨rfl, rfl, rfl, fun _ => ⟨rfl, fun _ => rfl⟩⟩
  | true =>
    obtain ⟨only, channel⟩ := enterClampWait_of_locked locked
    refine ⟨only.evid, only.used, ?_, fun d => ⟨?_, fun unused => ?_⟩⟩
    · rw [only.mould]
      rfl
    · rw [channel]
      split
      · unfold biasedChannel
        split <;> rfl
      · rfl
    · rw [channel, if_neg unused]

/-! ### The description (R112, R113) -/

/-- A check against the entries before finds no failing one: no two entries have a number in common. -/
theorem distinct_of_firstBad_eq_none {before xs : List ChannelSpec} {i : Nat}
    (h : firstBad (fun before c => before.any fun e => decide (e.chan = c.chan)) before xs i = none) :
    (∀ x ∈ xs, ∀ e ∈ before, e.chan ≠ x.chan) ∧ (xs.map (·.chan)).Nodup := by
  induction xs generalizing before i with
  | nil => simp
  | cons y ys ih =>
    unfold firstBad at h
    split at h
    · cases h
    next new =>
      obtain ⟨others, nodup⟩ := ih h
      refine ⟨fun x mem e he => ?_, ?_⟩
      · rcases List.mem_cons.1 mem with rfl | mem
        · exact fun same => new (List.any_eq_true.2 ⟨e, he, decide_eq_true same⟩)
        · exact others x mem e (List.mem_append_left _ he)
      · rw [List.map_cons, List.nodup_cons]
        refine ⟨fun mem => ?_, nodup⟩
        obtain ⟨x, hx, same⟩ := List.mem_map.1 mem
        exact others x hx y (List.mem_append_right _ List.mem_cons_self) same.symm

/-- The channels of a valid description are distinct (Table 35, items 5 and 6). -/
theorem channels_nodup_of_valid {v : Variant} {d : Description} (h : validate v d = none) :
    (d.channels.map fun c => channelOf c.chan).Nodup := by
  have item : failing 6 (fun before c => before.any fun e => decide (e.chan = c.chan)) d.channels = none := by
    simp only [validate, Option.orElse_eq_none] at h
    obtain ⟨-, -, -, -, -, item, -⟩ := h
    exact item
  have numbers := (distinct_of_firstBad_eq_none (Option.map_eq_none_iff.1 item)).2
  have named : d.channels.map (·.chan) = (d.channels.map fun c => channelOf c.chan).map (·.val) := by
    rw [List.map_map]
    exact List.map_congr_left fun c mem => (channelOf_val (chan_lt_of_valid h c mem)).symm
  rw [named] at numbers
  exact numbers.of_map _

theorem setThresholds_cons (c : ChannelSpec) (cs : List ChannelSpec) (s : State) :
    setThresholds (c :: cs) s =
      setThresholds cs (s.onChannel (channelOf c.chan) fun ch => { ch with base := some c.threshold }) := rfl

/-- A channel that the description does not name keeps its record. -/
theorem setThresholds_channel_ne (cs : List ChannelSpec) (s : State) (h : ∀ e ∈ cs, channelOf e.chan ≠ d) :
    (setThresholds cs s).channel d = s.channel d := by
  induction cs generalizing s with
  | nil => rfl
  | cons c cs ih =>
    rw [setThresholds_cons, ih _ fun e mem => h e (List.mem_cons_of_mem _ mem)]
    exact State.channel_onChannel_ne s (h c List.mem_cons_self).symm _

/-- Each channel that a description with distinct channels names takes its threshold. -/
theorem setThresholds_base (cs : List ChannelSpec) (s : State) (distinct : (cs.map fun c => channelOf c.chan).Nodup)
    {c : ChannelSpec} (mem : c ∈ cs) : ((setThresholds cs s).channel (channelOf c.chan)).base = some c.threshold := by
  induction cs generalizing s with
  | nil => cases mem
  | cons e es ih =>
    rw [List.map_cons, List.nodup_cons] at distinct
    obtain ⟨fresh, distinct⟩ := distinct
    rw [setThresholds_cons]
    rcases List.mem_cons.1 mem with rfl | mem
    · rw [setThresholds_channel_ne es _ fun x hx same => fresh (List.mem_map.2 ⟨x, hx, same⟩), State.channel_onChannel_self]
    · exact ih _ distinct mem

/-- The mould manager's record of a description that has been read. -/
def described (d : Description) (s : State) : State :=
  (readOver s).onMould fun m =>
    { m with identity := some d.fixed.identity, used := d.channels.map fun c => channelOf c.chan, settleCode := d.fixed.settleCode
             cyclesWatched := 0, saveCount := 0 }

/-- The description adopted, with its read over (R113). -/
def adopted (d : Description) (s : State) : State := adoptDescription d (readOver s)

theorem takeDescription_of_invalid {d : Description} {item index : Nat} (h : validate s.variant d = some (item, index)) :
    takeDescription d s = endOrder (.badDescription item index) (readOver s) := by
  have bad : validate (readOver s).variant d = some (item, index) := h
  rw [readOver] at bad
  rw [takeDescription]
  simp only [bad]
  rfl

theorem takeDescription_of_valid {d : Description} (h : validate s.variant d = none) :
    takeDescription d s =
      if (adopted d s).mould.fresh = .flag then enterClampWait (adopted d s)
      else (adopted d s).onMould fun m => { m with read := .context } := by
  have good : validate (readOver s).variant d = none := h
  rw [readOver] at good
  rw [takeDescription]
  simp only [good]
  rfl

theorem setThresholds_frame (cs : List ChannelSpec) (s : State) : { setThresholds cs s with front := s.front } = s := by
  induction cs generalizing s with
  | nil => rfl
  | cons c cs ih =>
    rw [setThresholds_cons]
    have rest := ih (s.onChannel (channelOf c.chan) fun ch => { ch with base := some c.threshold })
    exact congrArg (fun u : State => { u with front := s.front }) rest

/-- The mould manager's record of an adopted description. -/
theorem adopted_mould (d : Description) (s : State) :
    (adopted d s).mould = { s.mould with
      read := .none, identity := some d.fixed.identity, used := d.channels.map fun c => channelOf c.chan
      settleCode := d.fixed.settleCode, cyclesWatched := 0, saveCount := 0 } := by
  have keeps := (setThresholds_keeps d.channels (described d s)).mould rfl
  exact ((standTables_keeps _ _).mould rfl).trans keeps

theorem adopted_tables (d : Description) (s : State) :
    (adopted d s).evid.tables = some { paths := d.paths.map buildPath, zones := d.zones.map buildZone } := rfl

theorem adopted_base {d : Description} (h : validate s.variant d = none) {c : ChannelSpec} (mem : c ∈ d.channels) :
    ((adopted d s).channel (channelOf c.chan)).base = some c.threshold :=
  setThresholds_base _ _ (channels_nodup_of_valid h) mem

theorem adopted_channel_ne {e : Description} (h : ∀ c ∈ e.channels, channelOf c.chan ≠ d) : (adopted e s).channel d = s.channel d :=
  setThresholds_channel_ne _ _ h

theorem adopted_xu (d : Description) (s : State) : (adopted d s).xu = s.xu := by
  have frame := setThresholds_frame d.channels (described d s)
  exact (congrArg State.xu frame :)

theorem adopted_clamp (d : Description) (s : State) : clampLocked (adopted d s) = clampLocked s :=
  congrArg (fun l : LineInputs => l.clamp.filtered) (adoptDescription_keeps d (readOver s)).lines

/-- Settles O38. -/
theorem descriptionPartRead : Obligations.DescriptionPartRead := by
  intro bytes f d s hh read fixed length hd
  rw [exec_descriptionRead hh read fixed length, ← hd]
  have keeps := takeDescription_keeps d s
  refine ⟨fun valid => ?_, fun item index invalid => ?_⟩
  · have mould := adopted_mould d s
    have hf : d.fixed = f := by rw [hd]; rfl
    have fresh : (adopted d s).mould.fresh = s.mould.fresh := by rw [mould]
    have taken := takeDescription_of_valid valid
    have base {c : ChannelSpec} (mem : c ∈ d.channels) := adopted_base valid mem
    by_cases flag : s.mould.fresh = .flag
    · rw [if_pos (fresh.trans flag)] at taken
      obtain ⟨evid, used, record, channels⟩ := enterClampWait_frame (adopted d s)
      rw [← taken] at evid used record channels
      refine ⟨_, rfl, ?_, ?_, ?_, ?_, ?_, ?_, fun c mem => ?_, fun c unnamed => ?_, fun unflagged => absurd flag unflagged, fun _ => ?_,
        keeps.timer rfl, keeps.corr rfl, keeps.tester rfl, keeps.lines, takeDescription_latch d s, keeps.outside⟩
      · rw [record, mould, hf]
      · rw [used, mould]
      · rw [record, mould, hf]
      · rw [record, mould]
      · rw [record, mould]
      · rw [evid]
        rfl
      · rw [(channels _).1]
        exact base mem
      · refine ((channels c).2 fun mem => ?_).trans (adopted_channel_ne unnamed)
        rw [mould] at mem
        obtain ⟨e, he, named⟩ := List.mem_map.1 mem
        exact unnamed e he named
      · refine ⟨?_, fun locked => ?_, fun unlocked => ?_⟩
        · rw [record, mould]
        · rw [taken]
          exact (enterClampWait_enters _).1 ((adopted_clamp d s).trans locked)
        · obtain ⟨phase, timer, -, xu⟩ := (enterClampWait_enters _).2 ((adopted_clamp d s).trans unlocked)
          rw [taken]
          exact ⟨phase, timer.trans (by rw [mould]), xu.trans (adopted_xu d s)⟩
    · rw [if_neg (by rw [fresh]; exact flag)] at taken
      have tables : (takeDescription d s).evid.tables = _ := (congrArg (fun u => u.evid.tables) taken).trans (adopted_tables d s)
      have record : (takeDescription d s).mould = { (adopted d s).mould with read := .context } := congrArg State.mould taken
      have channel (c : ChannelNo) : (takeDescription d s).channel c = (adopted d s).channel c :=
        by rw [taken]; rfl
      refine ⟨_, rfl, ?_, ?_, ?_, ?_, ?_, tables, fun c mem => ?_, fun c unnamed => ?_, fun _ => ?_, fun flagged => absurd flagged flag,
        keeps.timer rfl, keeps.corr rfl, keeps.tester rfl, keeps.lines, takeDescription_latch d s, keeps.outside⟩
      · rw [record, mould, hf]
      · rw [record, mould]
      · rw [record, mould, hf]
      · rw [record, mould]
      · rw [record, mould]
      · rw [channel]
        exact base mem
      · rw [channel]
        exact adopted_channel_ne unnamed
      · rw [record, mould, taken]
        exact ⟨rfl, rfl, rfl, adopted_xu d s⟩
  · have ends := takeDescription_of_invalid invalid
    obtain ⟨left, order⟩ := endOrder_left (.badDescription item index) (readOver s)
    refine ⟨_, rfl, ends ▸ left, ends ▸ order, keeps.timer rfl, keeps.corr rfl, keeps.tester rfl, keeps.lines, takeDescription_latch d s,
      keeps.outside, fun o head hasOrder cell ha hq => ?_⟩
    rw [ends]
    exact endOrder_queue (s := readOver s) hasOrder cell ha hq

/-! ### The context (R84, R114) -/

theorem loadContext_zones (c : ContextRead) (s : State) :
    zonesOf (loadContext c s) = (zonesOf s).zipWith ZoneEntry.loaded c.zones :=
  zonesOf_onTables _ (fun zs => zs.zipWith ZoneEntry.loaded c.zones) s (fun _ => rfl) rfl

theorem loadContext_paths (c : ContextRead) (s : State) :
    pathsOf (loadContext c s) = (pathsOf s).zipWith PathEntry.loaded c.velocities :=
  pathsOf_onTables _ (fun ps => ps.zipWith PathEntry.loaded c.velocities) s (fun _ => rfl) rfl

/-- A velocity from 100 to 1000 replaces the description's (R84). -/
theorem pathLoaded_eq (p : PathEntry) (v : Option Nat) :
    p.loaded v =
      if 100 ≤ v.getD 0 ∧ v.getD 0 ≤ 1000 then
        { p with velocity := v.getD 0, calibrated := true, window := pathWindow p.length (v.getD 0) p.margin }
      else p := by
  cases v with
  | none => rfl
  | some v => simp [PathEntry.loaded, within, PathEntry.replaced]

theorem takeContext_of_fault {c : ContextRead} {r : FreshReason} (h : contextFault c s = some r) :
    takeContext c s = enterClampWait ((readOver s).onMould fun m => { m with fresh := r }) := by
  have bad : contextFault c (readOver s) = some r := h
  rw [readOver] at bad
  rw [takeContext]
  simp only [bad]
  rfl

/-- The context loaded, with its read over. -/
def contextLoaded (c : ContextRead) (s : State) : State :=
  (loadContext c (readOver s)).onMould fun m =>
    { m with cyclesWatched := c.cyclesWatched, saveCount := c.saveCount, loadedSavedBy := c.savedBy }

theorem takeContext_of_good {c : ContextRead} (h : contextFault c s = none) : takeContext c s = enterClampWait (contextLoaded c s) := by
  have good : contextFault c (readOver s) = none := h
  rw [readOver] at good
  rw [takeContext]
  simp only [good]
  rfl

/-- Loaded or not, the context leaves the channels and the exchange unit, and the mount enters CLAMP_WAIT. -/
theorem takeContext_enters (c : ContextRead) (s : State) :
    ∃ u, takeContext c s = enterClampWait u ∧ u.mould.read = .none ∧ u.lines = s.lines ∧ u.front = s.front ∧ u.xu = s.xu
      ∧ u.mould.mountTimeout = s.mould.mountTimeout := by
  cases fault : contextFault c s with
  | none => exact ⟨_, takeContext_of_good fault, rfl, rfl, rfl, rfl, rfl⟩
  | some r => exact ⟨_, takeContext_of_fault fault, rfl, rfl, rfl, rfl, rfl⟩

/-- A context that is left aside leaves the tables, and says why. -/
theorem freshened (s : State) (r : FreshReason) :
    (enterClampWait ((readOver s).onMould fun m => { m with fresh := r })).mould.fresh = r
      ∧ (enterClampWait ((readOver s).onMould fun m => { m with fresh := r })).evid = s.evid
      ∧ (enterClampWait ((readOver s).onMould fun m => { m with fresh := r })).mould.cyclesWatched = s.mould.cyclesWatched := by
  obtain ⟨evid, -, record, -⟩ := enterClampWait_frame ((readOver s).onMould fun m => { m with fresh := r })
  rw [record]
  exact ⟨rfl, evid, rfl⟩

/-- Settles O39. -/
theorem contextPartRead : Obligations.ContextPartRead := by
  intro bytes f c s hh read fixed length hc
  rw [exec_contextRead hh read fixed length, ← hc]
  have keeps := takeContext_keeps c s
  refine ⟨takeContext c s, rfl, fun tag zones paths => ?_, fun tag => ?_, fun tag counts => ?_, ?_, ?_, ?_, keeps.timer rfl, keeps.corr rfl,
    keeps.tester rfl, keeps.lines, takeContext_latch c s, keeps.outside⟩
  · have good : contextFault c s = none := by simp [contextFault, formatTag, tag, zones, paths]
    obtain ⟨evid, -, record, -⟩ := enterClampWait_frame (contextLoaded c s)
    rw [takeContext_of_good good, zonesOf_congr evid, pathsOf_congr evid]
    refine ⟨loadContext_zones c (readOver s), (loadContext_paths c (readOver s)).trans ?_, ?_, ?_, ?_⟩
    · exact congrArg (fun f => List.zipWith f (pathsOf s) c.velocities) (funext fun p => funext fun v => pathLoaded_eq p v)
    · rw [record]
      rfl
    · rw [record]
      rfl
    · rw [record]
      rfl
  · have bad : contextFault c s = some .format := by simp [contextFault, formatTag, tag]
    rw [takeContext_of_fault bad]
    exact freshened s .format
  · have bad : contextFault c s = some .counts := by simp [contextFault, formatTag, tag, counts]
    rw [takeContext_of_fault bad]
    exact freshened s .counts
  all_goals obtain ⟨u, entered, ended, lines, front, xu, timeout⟩ := takeContext_enters c s
  · obtain ⟨-, -, record, -⟩ := enterClampWait_frame u
    rw [entered, record]
    exact ended
  · rw [entered]
    exact fun locked => (enterClampWait_enters u).1 (by rw [clampLocked, lines]; exact locked)
  · rw [entered, ← front, ← xu, ← timeout]
    exact fun unlocked => (enterClampWait_enters u).2 (by rw [clampLocked, lines]; exact unlocked)

end Sys2Proof.Machine
end

section
/-! PROOF. The mould manager's cut, abort and bias-off, and the edges of CLAMP that ask for them (R39, R56, R119, R121 to R123, R142). -/

namespace Sys2Proof.Machine

open Sys2Proof

variable {s t u : State} {c d : ChannelNo}

/-! ## The cut and the abort (R39, R56, R142) -/

theorem cutHits_of_noHit (quiet : NoHit s) : cutHits s = s := by
  have fold (cs : List ChannelNo) : cs.foldl (fun s c => cutHit true Channel.armed c s) s = s := by
    induction cs with
    | nil => rfl
    | cons c cs ih =>
      have uncut : cutHit true Channel.armed c s = s := by simp [cutHit, quiet c]
      rw [List.foldl_cons, uncut, ih]
  exact fold allChannels

theorem cutEvents_of_noEvent (h : s.corr.events = []) : cutEvents s = s := by
  have same : (s.onCorr fun c => { c with events := [] }) = s := by
    rw [← h]
    rfl
  rw [cutEvents, h, same]
  rfl

theorem abortTests_of_noTest (h : s.tester = []) : abortTests s = s := by
  simp only [abortTests, forgetAttempt, h, releaseHead, List.foldl_nil]
  rw [← h]

/-- With no hit, no event and no test there is nothing to cut or abort. -/
theorem aborted_of_quiet (events : s.corr.events = []) (tests : s.tester = []) (quiet : NoHit s) : abortTests (cutRequest s) = s := by
  rw [cutRequest, cutHits_of_noHit quiet, cutEvents_of_noEvent events, abortTests_of_noTest tests]

theorem cutRequest_interplay (s : State) : Interplay s (cutRequest s) := (cutHits_interplay s).trans (cutEvents_interplay _)

theorem forgetAttempt_interplay (s : State) : Interplay s (forgetAttempt s) := by
  unfold forgetAttempt
  split
  · exact .refl s
  · exact (clearRoutes_interplay _ s).trans (onTest_interplay _ _)

theorem releaseHead_interplay (s : State) : Interplay s (releaseHead s) := by
  unfold releaseHead
  split
  · exact .refl s
  · exact releaseSource_interplay _ s

/-- The tests of a queue taken off end ABORTED in turn. -/
theorem abortTests_eq (s : State) :
    abortTests s =
      (releaseHead (forgetAttempt s)).tester.foldl (fun s t => endTest .aborted t s) { releaseHead (forgetAttempt s) with tester := [] } := rfl

theorem abortTests_interplay (s : State) : Interplay s (abortTests s) := by
  rw [abortTests_eq]
  refine (forgetAttempt_interplay s).trans ((releaseHead_interplay _).trans ?_)
  have dropped : Interplay (releaseHead (forgetAttempt s)) { releaseHead (forgetAttempt s) with tester := [] } :=
    .of_front rfl rfl rfl rfl rfl (.refl _)
  exact dropped.trans (.foldl _ (fun s x => endTest_interplay .aborted x s) _ _)

/-- Ended tests change the exchange unit and the paths. -/
theorem foldl_endTest_keeps (xs : List Test) (s : State) : Keeps evidenceOnly s (xs.foldl (fun s t => endTest .aborted t s) s) :=
  Keeps.foldl _ (fun s x => endTest_keeps .aborted x s) _ _

theorem abortTests_tester (s : State) : (abortTests s).tester = [] := by
  rw [abortTests_eq, (foldl_endTest_keeps _ _).tester rfl]

theorem forgetAttempt_corr (s : State) : (forgetAttempt s).corr = s.corr := by
  unfold forgetAttempt
  split
  · rfl
  · rw [State.onTest_corr, (clearRoutes_keeps _ _).corr rfl]

theorem abortTests_corr (s : State) : (abortTests s).corr = s.corr := by
  rw [abortTests_eq, (foldl_endTest_keeps _ _).corr rfl]
  exact ((releaseHead_keeps _).corr rfl).trans (forgetAttempt_corr s)

theorem clearRoutes_noHit (ps : List Partner) (quiet : NoHit s) : NoHit (clearRoutes ps s) := by
  unfold clearRoutes
  induction ps generalizing s with
  | nil => exact quiet
  | cons p ps ih =>
    refine ih ?_
    dsimp only
    split
    · exact onChannel_noHit _ (fun _ => rfl) quiet
    · exact quiet

theorem forgetAttempt_noHit (quiet : NoHit s) : NoHit (forgetAttempt s) := by
  unfold forgetAttempt
  split
  · exact quiet
  · exact noHit_of_front (State.onTest_front _ _) (clearRoutes_noHit _ quiet)

theorem releaseHead_noHit (quiet : NoHit s) : NoHit (releaseHead s) := by
  unfold releaseHead
  split
  · exact quiet
  · exact releaseSource_noHit _ quiet

theorem abortTests_noHit (quiet : NoHit s) : NoHit (abortTests s) := by
  rw [abortTests_eq]
  refine noHit_of_front ((foldl_endTest_keeps _ _).front rfl) ?_
  exact releaseHead_noHit (forgetAttempt_noHit quiet)

theorem cutRequest_noHit (s : State) : NoHit (cutRequest s) := noHit_of_front ((cutEvents_keeps _).front rfl) (cutHits_noHit s)

theorem cutRequest_eventsCut (s : State) : EventsCut s (cutRequest s) := fun low => by
  have noted := cutHits_noted s
  rw [cutRequest, cutEvents_cut (by rw [noted.cut]; exact low), noted.cut, noted.events]
  rfl

/-! ## The mould emptied of hits, events, tests and bias -/

/-- Every hit and event cut, every test aborted, and the bias off every used channel. -/
def emptied (s : State) : State := biasOffUsed (abortTests (cutRequest s))

/-- A mould state in which reports change nothing stays through a bias-off. -/
theorem biasOff1_still (still : MouldStill s) (c : ChannelNo) : (biasOff1 c s).mould = s.mould := by
  have cut := cutHit_idled_interplay false c s
  unfold biasOff1
  dsimp only
  split
  · exact cut.still still
  · rw [mouldFollow_of_still]
    · exact cut.still still
    · exact still.congr cut.lines (cut.still still)

theorem biasOffUsed_still (still : MouldStill s) : (biasOffUsed s).mould = s.mould := by
  have fold (cs : List ChannelNo) (v : State) (still : MouldStill v) :
      (cs.foldl (fun s c => biasOff1 c s) v).mould = v.mould := by
    induction cs generalizing v with
    | nil => rfl
    | cons c cs ih =>
      have step := biasOff1_still still c
      exact (ih _ (still.congr (biasOff1_keeps c v).lines step)).trans step
  exact fold _ s still

/-- What the emptied mould holds. -/
structure Emptied (s t : State) : Prop where
  events : t.corr.events = []
  tester : t.tester = []
  noHit : NoHit t
  off : ∀ c ∈ s.mould.used, (t.channel c).state = .off
  cut : EventsCut s t

theorem emptied_tester (s : State) : (emptied s).tester = [] := by
  rw [emptied, (biasOffUsed_channelsOnly (abortTests_noHit (cutRequest_noHit s))).1.tester, abortTests_tester]

theorem emptied_corr (s : State) : (emptied s).corr = (cutRequest s).corr := by
  rw [emptied, (biasOffUsed_channelsOnly (abortTests_noHit (cutRequest_noHit s))).1.corr, abortTests_corr]

theorem emptied_noHit (s : State) : NoHit (emptied s) := (biasOffUsed_channelsOnly (abortTests_noHit (cutRequest_noHit s))).2

theorem emptied_off (s : State) (c : ChannelNo) (mem : c ∈ s.mould.used) : ((emptied s).channel c).state = .off := by
  have used : (abortTests (cutRequest s)).mould.used = s.mould.used := ((cutRequest_interplay s).trans (abortTests_interplay _)).used
  rw [emptied]
  exact biasOffUsed_off _ (used.symm ▸ mem)

theorem emptied_emptied (s : State) : Emptied s (emptied s) where
  events := by rw [emptied_corr, cutRequest, cutEvents_events]
  tester := emptied_tester s
  noHit := emptied_noHit s
  off := emptied_off s
  cut low := by rw [emptied_corr, cutRequest_eventsCut s low]

theorem Emptied.congr (h : Emptied s t) (hc : u.corr = t.corr) (ht : u.tester = t.tester)
    (channel : ∀ c, (u.channel c).state = (t.channel c).state ∧ (u.channel c).hit = (t.channel c).hit) : Emptied s u where
  events := by rw [hc, h.events]
  tester := by rw [ht, h.tester]
  noHit c := (channel c).2.trans (h.noHit c)
  off c mem := (channel c).1.trans (h.off c mem)
  cut low := by rw [hc, h.cut low]

theorem Emptied.of_keeps {p : Parts} (h : Emptied s t) (k : Keeps p t u) (w : p.corr = false := by rfl)
    (w' : p.tester = false := by rfl) (w'' : p.front = false := by rfl) : Emptied s u :=
  h.congr (k.corr w) (k.tester w') fun c => by rw [k.channel c w'']; exact ⟨rfl, rfl⟩

theorem emptied_still (still : MouldStill s) : (emptied s).mould = s.mould := by
  have aborted := (cutRequest_interplay s).trans (abortTests_interplay _)
  exact (biasOffUsed_still (still.congr aborted.lines (aborted.still still))).trans (aborted.still still)

/-- With nothing to cut or abort, only the bias is taken off. -/
theorem emptied_of_quiet (events : s.corr.events = []) (tests : s.tester = []) (quiet : NoHit s) :
    ChannelsOnly s (emptied s) := by
  rw [emptied, aborted_of_quiet events tests quiet]
  exact (biasOffUsed_channelsOnly quiet).1

theorem mouldCondition_flag (k : Condition) (s : State) : (mouldCondition k s).xu.accruals.flags &&& k.accrued = k.accrued := by
  rw [mouldCondition, handCondition_accruals]
  exact or_and_self_right _ _

/-! ## The edges of CLAMP (R115, R116, R121, R122) -/

theorem biasedChannel_of_down {code : Nat} {ch : Channel} (h : ch.state = .off ∨ ch.state = .fault) :
    biasedChannel code ch = { ch with state := .settling, settle := some (settleTicks code) } := if_pos h

theorem biasedChannel_of_up {code : Nat} {ch : Channel} (h : ch.state ≠ .off ∧ ch.state ≠ .fault) : biasedChannel code ch = ch :=
  if_neg fun e => e.elim h.1 h.2

/-- Bias asked for every used channel: those without it settle, and the others stand. -/
theorem biasedUsed_iff {code : Nat} {used : List ChannelNo} (channel : ∀ d, t.channel d =
      if d ∈ used then biasedChannel code (s.channel d) else s.channel d) :
    (∀ c ∈ used, (s.channel c).state = .off ∨ (s.channel c).state = .fault →
        t.channel c = { s.channel c with state := .settling, settle := some (settleTicks code) })
      ∧ (∀ c : ChannelNo, c ∉ used ∨ ((s.channel c).state ≠ .off ∧ (s.channel c).state ≠ .fault) → t.channel c = s.channel c) := by
  refine ⟨fun c mem down => ?_, fun c spared => ?_⟩
  · rw [channel, if_pos mem, biasedChannel_of_down down]
  · rw [channel]
    split
    next mem => exact biasedChannel_of_up (spared.resolve_left fun e => e mem)
    · rfl

/-- Entering SETTLING asks every used channel for bias and changes no more. -/
theorem enterSettling_channels (mounting : s.mould.state = .mounting) :
    (enterSettling s).mould = { s.mould with phase := .settling, timer := none }
      ∧ ChannelsOnly (s.onMould fun m => { m with phase := .settling, timer := none }) (enterSettling s)
      ∧ ∀ d : ChannelNo, (enterSettling s).channel d =
          if d ∈ s.mould.used then biasedChannel s.mould.settleCode (s.channel d) else s.channel d := by
  obtain ⟨only, channel⟩ := biasOnUsed_channels (s.onMould fun m => { m with phase := .settling, timer := none })
  exact ⟨only.unwatched (by simp [watching, mounting]), only, channel⟩

theorem clampLocks_of_waiting (mounting : s.mould.state = .mounting) (waits : s.mould.phase = .clampWait) : clampLocks s = enterSettling s := by
  simp only [clampLocks, mounting, waits]

theorem clampLocks_of_suspended (h : s.mould.state = .suspended) : clampLocks s = biasOnUsed (mouldCondition .clampLocked s) := by
  simp only [clampLocks, h]

theorem clampLocks_of_away (away : s.mould.state = .empty ∨ s.mould.state = .dismounting) : clampLocks s = s := by
  rcases away with h | h <;> simp only [clampLocks, h]

theorem clampUnlocks_of_watching (h : watching s = true) :
    clampUnlocks s = mouldCondition .clampOpen (emptied (s.onMould fun m => { m with state := .suspended })) := by
  rcases watching_iff.1 h with h | h <;> simp only [clampUnlocks, h, emptied]

theorem clampUnlocks_of_settling (mounting : s.mould.state = .mounting) (settles : s.mould.phase = .settling) :
    clampUnlocks s = biasOffUsed (startMountTimer s) := by
  simp only [clampUnlocks, mounting, settles]

theorem clampUnlocks_of_suspended (h : s.mould.state = .suspended) : clampUnlocks s = mouldCondition .clampOpen (biasOffUsed s) := by
  simp only [clampUnlocks, h]

theorem clampUnlocks_of_away (away : s.mould.state = .empty ∨ s.mould.state = .dismounting) : clampUnlocks s = s := by
  rcases away with h | h <;> simp only [clampUnlocks, h]

/-- A watched mould whose clamp unlocks is emptied and SUSPENDED. -/
theorem clampUnlocks_suspends (unlocked : clampLocked s = false) (h : watching s = true) :
    (clampUnlocks s).mould = { s.mould with state := .suspended } ∧ Emptied s (clampUnlocks s) := by
  rw [clampUnlocks_of_watching h]
  have still : MouldStill (s.onMould fun m => { m with state := .suspended }) := .inr (.inl ⟨rfl, unlocked⟩)
  have handed := mouldCondition_keeps (p := exchangeOnly) .clampOpen (emptied (s.onMould fun m => { m with state := .suspended }))
  have empties := (emptied_emptied (s.onMould fun m => { m with state := .suspended })).of_keeps handed
  exact ⟨(handed.mould rfl).trans (emptied_still still), empties.events, empties.tester, empties.noHit, empties.off, empties.cut⟩

/-- Settles O40, by the four cases of the mould's state. -/
theorem clampLocksAndUnlocks : Obligations.ClampLocksAndUnlocks := by
  intro s hh due
  rw [exec_lineFilterExpiry_of_due .clamp hh due]
  refine ⟨fun raw waits => ?_, fun raw watched => ?_, fun raw waits => ?_, fun away => ?_⟩
  · have locks : deliverEdge .clamp (s.lines.at .clamp).raw (filteredTo .clamp s) = clampLocks (filteredTo .clamp s) := if_pos raw
    rw [locks]
    have keeps := clampLocks_keeps (filteredTo .clamp s)
    rcases waits with ⟨mounting, waits⟩ | suspended
    · obtain ⟨mould, only, channel⟩ := enterSettling_channels (s := filteredTo .clamp s) mounting
      rw [clampLocks_of_waiting (s := filteredTo .clamp s) mounting waits] at keeps ⊢
      obtain ⟨biased, spared⟩ := biasedUsed_iff (s := s) channel
      exact ⟨_, rfl, fun _ => ⟨mould, only.xu⟩, fun h => absurd (mounting.symm.trans h) (by decide), biased, spared,
        keeps.timer rfl, keeps.corr rfl, keeps.evid rfl, keeps.tester rfl, keeps.lines, keeps.outside⟩
    · rw [clampLocks_of_suspended (s := filteredTo .clamp s) suspended] at keeps ⊢
      have handed := mouldCondition_keeps (p := exchangeOnly) .clampLocked (filteredTo .clamp s)
      obtain ⟨only, channel⟩ := biasOnUsed_channels (mouldCondition .clampLocked (filteredTo .clamp s))
      have mould := handed.mould rfl
      have unwatched : watching (mouldCondition .clampLocked (filteredTo .clamp s)) = false := by simp [watching, mould, suspended]
      obtain ⟨biased, spared⟩ := biasedUsed_iff (s := s) (code := s.mould.settleCode) (used := s.mould.used) fun d => by
        rw [channel, mould, handed.channel d rfl]
        rfl
      exact ⟨_, rfl, fun h => absurd (suspended.symm.trans h) (by decide), fun _ => (only.unwatched unwatched).trans mould, biased, spared,
        keeps.timer rfl, keeps.corr rfl, keeps.evid rfl, keeps.tester rfl, keeps.lines, keeps.outside⟩
  · have unlocks : deliverEdge .clamp (s.lines.at .clamp).raw (filteredTo .clamp s) = clampUnlocks (filteredTo .clamp s) := by
      simp [deliverEdge, LineInputs.at, raw]
    have keeps := clampUnlocks_keeps (filteredTo .clamp s)
    obtain ⟨mould, empties⟩ := clampUnlocks_suspends (s := filteredTo .clamp s) raw (watching_iff.2 watched)
    rw [unlocks]
    refine ⟨_, rfl, congrArg MouldManager.state mould, empties.events, empties.tester, empties.noHit, empties.cut, empties.off, ?_,
      keeps.timer rfl, keeps.latch, keeps.outside⟩
    rw [clampUnlocks_of_watching (s := filteredTo .clamp s) (watching_iff.2 watched)]
    exact mouldCondition_flag .clampOpen _
  · have unlocks : deliverEdge .clamp (s.lines.at .clamp).raw (filteredTo .clamp s) = clampUnlocks (filteredTo .clamp s) := by
      simp [deliverEdge, LineInputs.at, raw]
    have keeps := clampUnlocks_keeps (filteredTo .clamp s)
    rw [unlocks]
    rcases waits with ⟨mounting, settles⟩ | suspended
    · rw [clampUnlocks_of_settling (s := filteredTo .clamp s) mounting settles] at keeps ⊢
      have still : MouldStill (startMountTimer (filteredTo .clamp s)) := .inl ⟨mounting, MountPhase.noConfusion⟩
      have mould := biasOffUsed_still still
      refine ⟨_, rfl, (congrArg MouldManager.state mould :), fun _ => ⟨(congrArg MouldManager.phase mould :), ?_⟩,
        fun h => absurd (mounting.symm.trans h) (by decide), fun c mem => biasOffUsed_off (startMountTimer (filteredTo .clamp s)) mem,
        keeps.timer rfl, keeps.latch, keeps.outside⟩
      rw [mould]
      exact congrArg some (Nat.mul_assoc s.mould.mountTimeout 1000 10000)
    · rw [clampUnlocks_of_suspended (s := filteredTo .clamp s) suspended] at keeps ⊢
      have handed := mouldCondition_keeps (p := exchangeOnly) .clampOpen (biasOffUsed (filteredTo .clamp s))
      have still : MouldStill (filteredTo .clamp s) := .inr (.inl ⟨suspended, raw⟩)
      refine ⟨_, rfl, congrArg MouldManager.state ((handed.mould rfl).trans (biasOffUsed_still still)),
        fun h => absurd (suspended.symm.trans h) (by decide), fun _ => mouldCondition_flag .clampOpen _, fun c mem => ?_,
        keeps.timer rfl, keeps.latch, keeps.outside⟩
      rw [handed.channel c rfl]
      exact biasOffUsed_off (filteredTo .clamp s) mem
  · have nothing : deliverEdge .clamp (s.lines.at .clamp).raw (filteredTo .clamp s) = filteredTo .clamp s := by
      have unlocks := clampUnlocks_of_away (s := filteredTo .clamp s) away
      have locks := clampLocks_of_away (s := filteredTo .clamp s) away
      cases raw : s.lines.clamp.raw <;> simp only [deliverEdge, LineInputs.at, raw, if_true, Bool.false_eq_true, if_false]
      · exact unlocks
      · exact locks
    rw [nothing]

end Sys2Proof.Machine
end

section
/-! PROOF. The mould leaves by a DISMOUNT or is pulled: its save, its order's result and its condition's record (R119, R120, R123, R126,
R160, R171). -/

namespace Sys2Proof.Machine

open Sys2Proof

variable {s t u : State} {o : OrderRef} {r : OrderResult} {head : Option OrderHead} {saver : SavedBy}

/-! ## Parting (R120, R126) -/

/-- The mould leaves or waits for its save: channels lose at most their base thresholds, the correlator and the tester stand, and jobs
join the back of the queue. -/
structure Parting (s t : State) : Prop where
  channel : ∀ c, (t.channel c).state = (s.channel c).state ∧ (t.channel c).hit = (s.channel c).hit
  corr : t.corr = s.corr
  tester : t.tester = s.tester
  accruals : t.xu.accruals = s.xu.accruals
  nextJournal : t.xu.nextJournal = s.xu.nextJournal
  queue : s.xu.queue <+: t.xu.queue

theorem Parting.refl (s : State) : Parting s s := ⟨fun _ => ⟨rfl, rfl⟩, rfl, rfl, rfl, rfl, List.prefix_rfl⟩

theorem Parting.trans (h : Parting s t) (k : Parting t u) : Parting s u where
  channel c := ⟨(k.channel c).1.trans (h.channel c).1, (k.channel c).2.trans (h.channel c).2⟩
  corr := k.corr.trans h.corr
  tester := k.tester.trans h.tester
  accruals := k.accruals.trans h.accruals
  nextJournal := k.nextJournal.trans h.nextJournal
  queue := h.queue.trans k.queue

/-- Requests of the exchange unit. -/
theorem Parting.of_requests (k : Keeps exchangeOnly s t) (h : Requests s t) (accruals : t.xu.accruals = s.xu.accruals)
    (nextJournal : t.xu.nextJournal = s.xu.nextJournal) : Parting s t :=
  ⟨fun c => by rw [k.channel c rfl]; exact ⟨rfl, rfl⟩, k.corr rfl, k.tester rfl, accruals, nextJournal, h.1⟩

theorem onMould_parting (f : MouldManager → MouldManager) (s : State) : Parting s (s.onMould f) :=
  ⟨fun _ => ⟨rfl, rfl⟩, rfl, rfl, rfl, rfl, List.prefix_rfl⟩

theorem leaveMould_parting (s : State) : Parting s (leaveMould s) := by
  have keeps := leaveMould_keeps s
  refine ⟨fun c => ?_, keeps.corr rfl, keeps.tester rfl, by rw [leaveMould_xu], by rw [leaveMould_xu], by rw [leaveMould_xu]⟩
  rw [leaveMould_channel]
  exact ⟨rfl, rfl⟩

theorem giveResult_nextJournal (o : OrderRef) (r : OrderResult) (s : State) : (giveResult o r s).xu.nextJournal = s.xu.nextJournal := by
  have goesOn (k : CellNo) (take : Word) (head : Option OrderHead) : (resultGoesOn k take head r s).xu.nextJournal = s.xu.nextJournal := by
    unfold resultGoesOn
    split
    · rfl
    · split <;> rfl
  unfold giveResult
  split
  · split
    · exact goesOn _ _ _
    · rfl
  · rfl

theorem giveResult_parting (o : OrderRef) (r : OrderResult) (s : State) : Parting s (giveResult o r s) :=
  .of_requests (giveResult_keeps o r s) (giveResult_requests o r s) (giveResult_accruals o r s) (giveResult_nextJournal o r s)

theorem answerOrder_parting (r : OrderResult) (s : State) : Parting s (answerOrder r s) := by
  unfold answerOrder
  split
  · exact .refl s
  · exact giveResult_parting _ r s
  · exact giveResult_parting _ r s

theorem requestMirror_parting (s : State) : Parting s (requestMirror s) := by
  refine .of_requests (requestMirror_keeps s) (requestMirror_requests s) (requestMirror_accruals s) ?_
  unfold requestMirror
  split <;> rfl

theorem endOrder_parting (r : OrderResult) (s : State) : Parting s (endOrder r s) :=
  (leaveMould_parting s).trans ((answerOrder_parting r (leaveMould s)).trans (onMould_parting (fun m => { m with order := .none }) _))

theorem leaveWithMirror_parting (s : State) : Parting s (leaveWithMirror s) := (leaveMould_parting s).trans (requestMirror_parting _)

theorem completeDismount_parting (r : OrderResult) (s : State) : Parting s (completeDismount r s) :=
  (endOrder_parting r s).trans (requestMirror_parting _)

theorem createSave_parting (saver : SavedBy) (s : State) : Parting s (createSave saver s) :=
  (onMould_parting _ s).trans ⟨fun _ => ⟨rfl, rfl⟩, rfl, rfl, rfl, rfl, List.prefix_append _ _⟩

theorem offerSave_parting (saver : SavedBy) (s : State) : Parting s (offerSave saver s) := by
  unfold offerSave
  split
  · exact (createSave_parting _ s).trans (leaveWithMirror_parting _)
  · exact createSave_parting _ s
  · exact onMould_parting _ s
  · exact onMould_parting _ s
  · exact completeDismount_parting _ s
  · exact leaveWithMirror_parting s

theorem Parting.emptied (h : Emptied s t) (k : Parting t u) : Emptied s u := h.congr k.corr k.tester k.channel

theorem leaveWithMirror_left (s : State) : MouldLeft (leaveWithMirror s) :=
  (requestMirror_keeps (p := exchangeOnly) (leaveMould s)).mouldLeft (leaveMould_left s)

theorem completeDismount_left (r : OrderResult) (s : State) :
    MouldLeft (completeDismount r s) ∧ (completeDismount r s).mould.order = .none := by
  obtain ⟨left, order⟩ := endOrder_left r s
  have asked := requestMirror_keeps (p := exchangeOnly) (endOrder r s)
  exact ⟨asked.mouldLeft left, (congrArg MouldManager.order (asked.mould rfl)).trans order⟩

/-! ## The offer of a save (R126) -/

theorem saveAnswer_of_created (ha : active s = true) (fits : mountingFits s = true) (hq : queueRoom s = true) : saveAnswer s = .created := by
  simp [saveAnswer, ha, fits, hq]

theorem saveAnswer_of_full (ha : active s = true) (fits : mountingFits s = true) (hq : queueRoom s = false) : saveAnswer s = .noRoom := by
  simp [saveAnswer, ha, fits, hq]

theorem saveAnswer_of_not_active (h : active s = false ∨ mountingFits s = false) : saveAnswer s = .notActive := by
  rcases h with h | h <;> simp [saveAnswer, h]

/-- The save's job, with the count it raises. -/
theorem createSave_queue (saver : SavedBy) (s : State) :
    (createSave saver s).xu.queue =
      s.xu.queue ++ [jobOf s 0 (.save (mountingContext s) (contextCopy saver (s.mould.saveCount + 1) s))] := rfl

theorem offerUnplanned_of_created (h : saveAnswer s = .created) : offerSave .unplanned s = leaveWithMirror (createSave .unplanned s) := by
  simp only [offerSave, h]

theorem offerUnplanned_of_full (h : saveAnswer s = .noRoom) : offerSave .unplanned s = holdSave .unplanned s := by simp only [offerSave, h]

theorem offerUnplanned_of_not_active (h : saveAnswer s = .notActive) : offerSave .unplanned s = leaveWithMirror s := by simp only [offerSave, h]

theorem offerDismount_of_created (h : saveAnswer s = .created) : offerSave .dismount s = createSave .dismount s := by simp only [offerSave, h]

theorem offerDismount_of_full (h : saveAnswer s = .noRoom) : offerSave .dismount s = holdSave .dismount s := by simp only [offerSave, h]

theorem offerDismount_of_not_active (h : saveAnswer s = .notActive) : offerSave .dismount s = completeDismount .nothingSaved s := by
  simp only [offerSave, h]

/-- After an UNPLANNED offer the mould has left, or waits for room in DISMOUNTING. -/
theorem offerUnplanned_left (state : s.mould.state = .dismounting) :
    MouldLeft (offerSave .unplanned s)
      ∨ ((offerSave .unplanned s).mould.state = .dismounting ∧ (offerSave .unplanned s).mould.pendingSave = some .unplanned) := by
  cases answer : saveAnswer s with
  | created =>
    rw [offerUnplanned_of_created answer]
    exact .inl (leaveWithMirror_left _)
  | noRoom =>
    rw [offerUnplanned_of_full answer]
    exact .inr ⟨state, rfl⟩
  | notActive =>
    rw [offerUnplanned_of_not_active answer]
    exact .inl (leaveWithMirror_left _)

/-- After a DISMOUNT's offer the mould is DISMOUNTING or EMPTY. -/
theorem offerDismount_state (state : s.mould.state = .dismounting) :
    (offerSave .dismount s).mould.state = .dismounting ∨ (offerSave .dismount s).mould.state = .empty := by
  cases answer : saveAnswer s with
  | created =>
    rw [offerDismount_of_created answer]
    exact .inl state
  | noRoom =>
    rw [offerDismount_of_full answer]
    exact .inl state
  | notActive =>
    rw [offerDismount_of_not_active answer]
    obtain ⟨⟨empty, -⟩, -⟩ := completeDismount_left .nothingSaved s
    exact .inr empty

/-! ## What a save reads -/

/-- The extent of the mounting, and the area it is saved to, are the same. -/
structure SameExtent (s t : State) : Prop where
  geometry : t.xu.geometry = s.xu.geometry
  area : t.xu.area = s.xu.area
  offset : t.mould.offset = s.mould.offset
  used : t.mould.used = s.mould.used
  paths : (pathsOf t).length = (pathsOf s).length
  zones : (zonesOf t).length = (zonesOf s).length

namespace SameExtent

theorem mountingFits (h : SameExtent s t) : Machine.mountingFits t = Machine.mountingFits s := by
  rw [Machine.mountingFits, Machine.mountingFits, h.geometry, h.offset, h.used, h.paths, h.zones]

theorem mountingContext (h : SameExtent s t) : Machine.mountingContext t = Machine.mountingContext s := by
  rw [Machine.mountingContext, Machine.mountingContext, h.offset, h.used, h.paths, h.zones]

theorem active (h : SameExtent s t) : Machine.active t = Machine.active s := active_congr h.area

theorem onMould (h : SameExtent s t) {f : MouldManager → MouldManager} (offset : ∀ m, (f m).offset = m.offset)
    (used : ∀ m, (f m).used = m.used) : SameExtent s (t.onMould f) :=
  ⟨h.geometry, h.area, (offset _).trans h.offset, (used _).trans h.used, h.paths, h.zones⟩

end SameExtent

theorem emptied_keeps (s : State) : Keeps sounding s (emptied s) := quiet_keeps s

theorem emptied_extent (s : State) : SameExtent s (emptied s) := by
  have unit := (emptied_keeps s).unit rfl
  have aborted := (cutRequest_interplay s).trans (abortTests_interplay _)
  have only := (biasOffUsed_channelsOnly (abortTests_noHit (cutRequest_noHit s))).1
  refine ⟨unit.geometry, unit.area, ?_, ?_, ?_, ?_⟩
  · rw [emptied, only.mould, ← aborted.offset]
  · rw [emptied, only.mould, ← aborted.used]
  · rw [emptied, pathsOf_congr only.evid, aborted.paths]
  · rw [emptied, zonesOf_congr only.evid, aborted.zones]

/-- What a quiet mould keeps, emptied: its save's copy too. -/
theorem contextCopy_congr {count : Word} (cycles : t.mould.cyclesWatched = s.mould.cyclesWatched) (evid : t.evid = s.evid) :
    contextCopy saver count t = contextCopy saver count s := by
  rw [contextCopy, contextCopy, cycles, pathsOf_congr evid, zonesOf_congr evid]

/-! ## The order's result behind it (R160) -/

theorem endOrder_xu (order : s.mould.order = .mount o ∨ s.mould.order = .dismount o) :
    (endOrder r s).xu = (giveResult o r (leaveMould s)).xu := by
  have answers : answerOrder r (leaveMould s) = giveResult o r (leaveMould s) := by
    unfold answerOrder
    rw [leaveMould_order]
    rcases order with h | h <;> rw [h]
  rw [endOrder, answers]
  rfl

/-- What becomes of the result of an order that ends with the mould: a job, a place in the entry, or nothing. -/
theorem endOrder_result (order : s.mould.order = .mount o ∨ s.mould.order = .dismount o) (cell : s.xu.cells[o.cell] = .inHand o.take head) :
    (active s = true → queueRoom s = true →
        (endOrder r s).xu.queue = s.xu.queue ++ [jobOf s 0 (.result o.cell o.take (notifyOf head) r)]
          ∧ (endOrder r s).xu.cells[o.cell] = .inHand o.take head)
      ∧ (active s = true → queueRoom s = false →
          (endOrder r s).xu.queue = s.xu.queue ∧ (endOrder r s).xu.cells[o.cell] = .resultWaiting o.take head r)
      ∧ (active s = false → (endOrder r s).xu.queue = s.xu.queue ∧ (endOrder r s).xu.cells[o.cell] = .free) := by
  have xu := leaveMould_xu s
  have cell' : (leaveMould s).xu.cells[o.cell] = .inHand o.take head := by rw [xu, cell]
  have activeEq : active (leaveMould s) = active s := active_congr (by rw [xu])
  have roomEq : queueRoom (leaveMould s) = queueRoom s := by rw [queueRoom, queueRoom, xu]
  rw [endOrder_xu order]
  refine ⟨fun ha hq => ?_, fun ha hq => ?_, fun ha => ?_⟩
  · rw [giveResult_of_room cell' (activeEq.trans ha) (roomEq.trans hq), addJob_queue, jobOf, jobOf, baseOf, baseOf, leaveMould_freeNext,
      xu]
    exact ⟨rfl, cell'⟩
  · rw [giveResult_of_full cell' (activeEq.trans ha) (roomEq.trans hq)]
    exact ⟨(congrArg Exchange.queue xu :), putCell_cell_self _ _ _⟩
  · rw [giveResult_of_not_active cell' (activeEq.trans ha)]
    exact ⟨(congrArg Exchange.queue xu :), putCell_cell_self _ _ _⟩

/-! ## MOULD_PULLED (R123, R171) -/

theorem conditionJobs_congr {k : Condition} {chan : Option ChannelNo} {tick : Word} (xu : t.xu = s.xu) (timer : t.timer = s.timer)
    (free : t.freeNext = s.freeNext) : conditionJobs k chan tick t = conditionJobs k chan tick s := by
  simp only [conditionJobs, active, journalRoom, queueRoom, jobOf, baseOf, xu, timer, free]
  congr

/-- A condition takes a free value and a journal sequence for its record. -/
theorem handCondition_takes (k : Condition) (chan : Option ChannelNo) (tick : Word) (s : State) :
    (handCondition k chan tick s).freeNext = s.freeNext + (conditionJobs k chan tick s).length
      ∧ (handCondition k chan tick s).xu.cells = s.xu.cells
      ∧ (conditionJobs k chan tick s ≠ [] → (handCondition k chan tick s).xu.nextJournal = s.xu.nextJournal.map (· + 1)) := by
  unfold conditionJobs
  split
  next room =>
    obtain ⟨ha, hc, hj, hq⟩ := room
    rw [handCondition_of_room ha hc hj hq]
    exact ⟨rfl, rfl, fun _ => rfl⟩
  next room =>
    rw [handCondition_of_no_room room]
    exact ⟨rfl, rfl, fun e => absurd rfl e⟩

theorem pullMould_eq (s : State) : pullMould s = mouldCondition .mouldPulled (emptied s) := rfl

theorem pullMould_emptied (s : State) : Emptied s (pullMould s) := by
  rw [pullMould_eq]
  exact (emptied_emptied s).of_keeps (mouldCondition_keeps (p := exchangeOnly) .mouldPulled (emptied s))

theorem pullMould_extent (s : State) : SameExtent s (pullMould s) := by
  have handed := mouldCondition_keeps (p := exchangeOnly) .mouldPulled (emptied s)
  have unit := handed.unit rfl
  have extent := emptied_extent s
  rw [pullMould_eq]
  refine ⟨unit.geometry.trans extent.geometry, unit.area.trans extent.area, ?_, ?_, ?_, ?_⟩
  · rw [handed.mould rfl, extent.offset]
  · rw [handed.mould rfl, extent.used]
  · rw [pathsOf_congr (handed.evid rfl), extent.paths]
  · rw [zonesOf_congr (handed.evid rfl), extent.zones]

/-- A mould pulled with nothing to cut or abort: the condition's record joins the queue, and the mould and its evidence stand. -/
structure QuietPull (record : List Job) (s t : State) : Prop where
  mould : t.mould = { s.mould with state := t.mould.state }
  evid : t.evid = s.evid
  queue : t.xu.queue = s.xu.queue ++ record
  cells : t.xu.cells = s.xu.cells
  nextJournal : record ≠ [] → t.xu.nextJournal = s.xu.nextJournal.map (· + 1)
  job (b : JobBody) : jobOf t 0 b = jobOf s record.length b

theorem pullMould_quiet {record : List Job} (events : s.corr.events = []) (tests : s.tester = []) (quiet : NoHit s)
    (pulled : PulledRecord s record) : QuietPull record s (pullMould s) := by
  have only := emptied_of_quiet events tests quiet
  have handed := mouldCondition_keeps (p := exchangeOnly) .mouldPulled (emptied s)
  have timer := (emptied_keeps s).timer rfl
  have jobs : conditionJobs .mouldPulled none (emptied s).timer.clock (emptied s) = record := by
    rw [conditionJobs_congr only.xu timer only.freeNext, timer, pulled]
    rfl
  obtain ⟨free, cells, journal⟩ := handCondition_takes .mouldPulled none (emptied s).timer.clock (emptied s)
  rw [jobs] at free journal
  have queue := handCondition_queue .mouldPulled none (emptied s).timer.clock (emptied s)
  rw [jobs] at queue
  have mould := handed.mould rfl
  rw [pullMould_eq]
  refine ⟨?_, (handed.evid rfl).trans only.evid, ?_, ?_, fun e => ?_, fun b => ?_⟩
  · rw [mould]
    exact only.mould
  · rw [mouldCondition, queue, only.xu]
  · rw [mouldCondition, cells, only.xu]
  · rw [mouldCondition, journal e, only.xu]
  · have base : baseOf (mouldCondition .mouldPulled (emptied s)) = baseOf s := by rw [handed.baseOf, baseOf, baseOf, only.xu]
    have taken : (mouldCondition .mouldPulled (emptied s)).freeNext = s.freeNext + record.length := by
      rw [mouldCondition, free, only.freeNext]
    rw [jobOf, jobOf, base, taken]
    rfl

theorem pullMould_flag (s : State) : (pullMould s).xu.accruals.flags &&& flagBit 4 = flagBit 4 := by
  rw [pullMould_eq]
  exact mouldCondition_flag .mouldPulled (emptied s)

/-- A pulled mould, DISMOUNTING until its UNPLANNED save is answered. -/
def awaitSave (s : State) : State := s.onMould fun m => { m with state := .dismounting, pendingSave := none }

theorem mouldPulled_of_mounting (h : s.mould.state = .mounting) : mouldPulled s = endOrder .cancelled (pullMould s) := by
  simp only [mouldPulled, h]

theorem mouldPulled_of_mounted (h : s.mould.state = .watching ∨ s.mould.state = .degraded ∨ s.mould.state = .suspended) :
    mouldPulled s = offerSave .unplanned (awaitSave (pullMould s)) := by
  rcases h with h | h | h <;> simp only [mouldPulled, awaitSave, h]

theorem mouldPulled_of_away (h : s.mould.state = .empty ∨ s.mould.state = .dismounting) : mouldPulled s = s := by
  rcases h with h | h <;> simp only [mouldPulled, h]

theorem mounting_or_mounted (empty : s.mould.state ≠ .empty) (dismounting : s.mould.state ≠ .dismounting) :
    s.mould.state = .mounting ∨ s.mould.state = .watching ∨ s.mould.state = .degraded ∨ s.mould.state = .suspended := by
  cases h : s.mould.state <;> simp_all

theorem mouldPulled_parting (empty : s.mould.state ≠ .empty) (dismounting : s.mould.state ≠ .dismounting) :
    Parting (pullMould s) (mouldPulled s) := by
  rcases mounting_or_mounted empty dismounting with h | h
  · rw [mouldPulled_of_mounting h]
    exact endOrder_parting _ _
  · rw [mouldPulled_of_mounted h]
    exact (onMould_parting _ _).trans (offerSave_parting .unplanned (awaitSave (pullMould s)))

/-- A MOUNT pulled with nothing to cut or abort: its CANCELLED behind the condition's record. -/
theorem QuietPull.result {record : List Job} (q : QuietPull record s t) (extent : SameExtent s t) (order : s.mould.order = .mount o)
    (cell : s.xu.cells[o.cell] = .inHand o.take head) :
    (active s = true → s.xu.queue.length + record.length < 16 →
        (endOrder .cancelled t).xu.queue = s.xu.queue ++ record ++ [jobOf s record.length (.result o.cell o.take (notifyOf head) .cancelled)]
          ∧ (endOrder .cancelled t).xu.cells[o.cell] = .inHand o.take head)
      ∧ (active s = true → 16 ≤ s.xu.queue.length + record.length →
          (endOrder .cancelled t).xu.queue = s.xu.queue ++ record
            ∧ (endOrder .cancelled t).xu.cells[o.cell] = .resultWaiting o.take head .cancelled)
      ∧ (active s = false → (endOrder .cancelled t).xu.queue = s.xu.queue ++ record ∧ (endOrder .cancelled t).xu.cells[o.cell] = .free) := by
  have ordered : t.mould.order = .mount o := by rw [q.mould, ← order]
  have celled : t.xu.cells[o.cell] = .inHand o.take head := by rw [q.cells, cell]
  obtain ⟨room, full, inactive⟩ := endOrder_result (r := .cancelled) (.inl ordered) celled
  have roomEq : queueRoom t = decide (s.xu.queue.length + record.length < 16) := by
    rw [queueRoom, q.queue, List.length_append]
    rfl
  rw [extent.active, roomEq, q.queue, q.job] at room
  rw [extent.active, roomEq, q.queue] at full
  rw [extent.active, q.queue] at inactive
  exact ⟨fun ha hq => room ha (decide_eq_true hq), fun ha hq => full ha (decide_eq_false (Nat.not_lt.2 hq)), inactive⟩

/-- A mounted mould pulled with nothing to cut or abort: its UNPLANNED save behind the condition's record. -/
theorem QuietPull.save {record : List Job} (q : QuietPull record s t) (extent : SameExtent s t) (ha : active s = true)
    (fits : mountingFits s = true) :
    (s.xu.queue.length + record.length < 16 →
        MouldLeft (offerSave .unplanned (awaitSave t))
          ∧ (offerSave .unplanned (awaitSave t)).xu.queue[s.xu.queue.length + record.length]? =
              some (jobOf s record.length (.save (mountingContext s) (contextCopy .unplanned (s.mould.saveCount + 1) s))))
      ∧ (16 ≤ s.xu.queue.length + record.length →
          (offerSave .unplanned (awaitSave t)).mould.state = .dismounting
            ∧ (offerSave .unplanned (awaitSave t)).mould.pendingSave = some .unplanned
            ∧ (offerSave .unplanned (awaitSave t)).evid = s.evid
            ∧ (offerSave .unplanned (awaitSave t)).xu.queue = s.xu.queue ++ record) := by
  have waiting : SameExtent s (awaitSave t) := extent.onMould (fun _ => rfl) fun _ => rfl
  have ha' := waiting.active.trans ha
  have fits' := waiting.mountingFits.trans fits
  have queue : (awaitSave t).xu.queue = s.xu.queue ++ record := q.queue
  have roomEq : queueRoom (awaitSave t) = decide (s.xu.queue.length + record.length < 16) := by
    rw [queueRoom, queue, List.length_append]
    rfl
  refine ⟨fun room => ?_, fun full => ?_⟩
  · rw [offerUnplanned_of_created (saveAnswer_of_created ha' fits' (roomEq.trans (decide_eq_true room)))]
    refine ⟨leaveWithMirror_left _, ?_⟩
    obtain ⟨rest, tail⟩ := (leaveWithMirror_parting (createSave .unplanned (awaitSave t))).queue
    have count : (awaitSave t).mould.saveCount = s.mould.saveCount := (congrArg MouldManager.saveCount q.mould :)
    have cycles : (awaitSave t).mould.cyclesWatched = s.mould.cyclesWatched := (congrArg MouldManager.cyclesWatched q.mould :)
    have copy : contextCopy .unplanned (s.mould.saveCount + 1) (awaitSave t) = contextCopy .unplanned (s.mould.saveCount + 1) s :=
      contextCopy_congr cycles q.evid
    have job (b : JobBody) : jobOf (awaitSave t) 0 b = jobOf s record.length b := q.job b
    rw [← tail, createSave_queue, queue, waiting.mountingContext, count, copy, job,
      List.getElem?_append_left (by simp), ← List.length_append, List.getElem?_concat_length]
  · rw [offerUnplanned_of_full (saveAnswer_of_full ha' fits' (roomEq.trans (decide_eq_false (Nat.not_lt.2 full))))]
    exact ⟨rfl, rfl, q.evid, queue⟩

/-- A MOUNT in hand, and a mounted mould whose save is given up, are over. -/
theorem mouldPulled_left (empty : s.mould.state ≠ .empty) (dismounting : s.mould.state ≠ .dismounting)
    (gone : s.mould.state = .mounting ∨ active s = false ∨ mountingFits s = false) : MouldLeft (mouldPulled s) := by
  rcases mounting_or_mounted empty dismounting with mounting | mounted
  · rw [mouldPulled_of_mounting mounting]
    exact (endOrder_left _ _).1
  · have unmounting : s.mould.state ≠ .mounting := by rcases mounted with h | h | h <;> simp [h]
    have waiting : SameExtent s (awaitSave (pullMould s)) := (pullMould_extent s).onMould (fun _ => rfl) fun _ => rfl
    rw [mouldPulled_of_mounted mounted, offerUnplanned_of_not_active
      (saveAnswer_of_not_active (by rw [waiting.active, waiting.mountingFits]; exact gone.resolve_left unmounting))]
    exact leaveWithMirror_left _

/-- Settles O41. -/
theorem mouldPulledLeaves : Obligations.MouldPulledLeaves := by
  intro s hh due
  rw [exec_lineFilterExpiry_of_due .mpres hh due]
  refine ⟨fun nothing => ?_, fun raw empty dismounting => ?_⟩
  · have away : deliverEdge .mpres (s.lines.at .mpres).raw (filteredTo .mpres s) = filteredTo .mpres s := by
      rcases nothing with raw | away
      · exact if_pos raw
      · have pulled := mouldPulled_of_away (s := filteredTo .mpres s) away
        exact (ite_eq_left_iff.2 fun _ => pulled)
    rw [away]
  · have falls : deliverEdge .mpres (s.lines.at .mpres).raw (filteredTo .mpres s) = mouldPulled (filteredTo .mpres s) := by
      simp [deliverEdge, LineInputs.at, raw]
    rw [falls]
    have parting := mouldPulled_parting (s := filteredTo .mpres s) empty dismounting
    have keeps := mouldPulled_keeps (filteredTo .mpres s)
    have empties := parting.emptied (pullMould_emptied (filteredTo .mpres s))
    have flag : (mouldPulled (filteredTo .mpres s)).xu.accruals.flags &&& flagBit 4 = flagBit 4 := by
      rw [parting.accruals, pullMould_flag]
    have left := mouldPulled_left (s := filteredTo .mpres s) empty dismounting
    have extent := pullMould_extent (filteredTo .mpres s)
    have quietly {record : List Job} (events : s.corr.events = []) (tests : s.tester = []) (quiet : NoHit s) (pulled : PulledRecord s record) :=
      pullMould_quiet (s := filteredTo .mpres s) events tests quiet pulled
    have mount := mouldPulled_of_mounting (s := filteredTo .mpres s)
    have save := mouldPulled_of_mounted (s := filteredTo .mpres s)
    generalize mouldPulled (filteredTo .mpres s) = t at *
    generalize pullMould (filteredTo .mpres s) = f at *
    refine ⟨_, rfl, empties.events, empties.tester, empties.noHit, empties.off, flag, empties.cut, fun record events tests quiet pulled => ?_,
      fun mounting => ?_, left, fun unmounting => ?_, keeps.timer rfl, keeps.latch, keeps.outside⟩
    · have q := quietly events tests quiet pulled
      refine ⟨fun some => parting.nextJournal.trans (q.nextJournal some), q.queue ▸ parting.queue, fun o head mounting order cell => ?_,
        fun unmounting ha fits => ?_⟩
      · obtain ⟨room, full, inactive⟩ := q.result extent order cell
        rw [← mount mounting] at room full inactive
        refine ⟨room, full, fun ha => ?_⟩
        have none : record = [] := by simp [pulled, ha]
        obtain ⟨queue, free⟩ := inactive ha
        rw [none, List.append_nil] at queue
        exact ⟨queue, free⟩
      · rw [save ((mounting_or_mounted empty dismounting).resolve_left unmounting)]
        exact q.save extent ha fits
    · rw [mount mounting]
      exact (endOrder_left _ _).2
    · rw [save ((mounting_or_mounted empty dismounting).resolve_left unmounting)]
      exact offerUnplanned_left rfl

/-! ## DISMOUNT of a mounted mould (R119, R120, R126) -/

/-- The mould manager takes up a DISMOUNT. -/
def startDismount (o : OrderRef) (s : State) : State :=
  s.onMould fun m => { m with state := .dismounting, order := .dismount o, pendingSave := none }

theorem dismountMould_eq (o : OrderRef) (s : State) : dismountMould o s = offerSave .dismount (emptied (startDismount o s)) := rfl

theorem takeDismount_of_mounted (h : s.mould.state = .watching ∨ s.mould.state = .degraded ∨ s.mould.state = .suspended) :
    takeDismount o s = dismountMould o s := by
  rcases h with h | h | h <;> simp only [takeDismount, h]

theorem startDismount_mould (o : OrderRef) (s : State) : (emptied (startDismount o s)).mould = (startDismount o s).mould :=
  emptied_still (.inr (.inr (.inr rfl)))

/-- The mould is DISMOUNTING with its save created. -/
theorem dismountMould_saves (only : ChannelsOnly (startDismount o s) (emptied (startDismount o s))) (ha : active s = true)
    (hq : queueRoom s = true) (fits : mountingFits s = true) :
    (dismountMould o s).mould.state = .dismounting ∧ (dismountMould o s).mould.order = .dismount o
      ∧ (dismountMould o s).mould.saveCount = s.mould.saveCount + 1 ∧ (dismountMould o s).evid = s.evid
      ∧ (dismountMould o s).xu.queue =
          s.xu.queue ++ [jobOf s 0 (.save (mountingContext s) (contextCopy .dismount (s.mould.saveCount + 1) s))] := by
  have mould := startDismount_mould o s
  have extent := emptied_extent (startDismount o s)
  rw [dismountMould_eq]
  generalize emptied (startDismount o s) = e at *
  have extent : SameExtent s e := ⟨extent.geometry, extent.area, extent.offset, extent.used, extent.paths, extent.zones⟩
  have evid : e.evid = s.evid := only.evid
  have xu : e.xu = s.xu := only.xu
  have free : e.freeNext = s.freeNext := only.freeNext
  rw [offerDismount_of_created (saveAnswer_of_created (extent.active.trans ha) (extent.mountingFits.trans fits)
    (by rw [queueRoom, xu]; exact hq)), createSave_queue, extent.mountingContext, xu, jobOf, baseOf, free, xu, mould]
  refine ⟨congrArg MouldManager.state mould, congrArg MouldManager.order mould, ?_, evid, ?_⟩
  · exact (congrArg (fun m : MouldManager => m.saveCount + 1) mould :)
  · rw [contextCopy_congr (congrArg MouldManager.cyclesWatched mould :) evid]
    rfl

/-- The record does not fit the area in use: NOTHING_SAVED, and the mould has left. -/
theorem dismountMould_saves_nothing (only : ChannelsOnly (startDismount o s) (emptied (startDismount o s)))
    (cell : s.xu.cells[o.cell] = .inHand o.take head) (ha : active s = true) (hq : queueRoom s = true) (fits : mountingFits s = false) :
    MouldLeft (dismountMould o s) ∧ (dismountMould o s).mould.order = .none
      ∧ (dismountMould o s).xu.queue[s.xu.queue.length]? = some (jobOf s 0 (.result o.cell o.take (notifyOf head) .nothingSaved)) := by
  have mould := startDismount_mould o s
  have extent := emptied_extent (startDismount o s)
  rw [dismountMould_eq]
  generalize emptied (startDismount o s) = e at *
  have extent : SameExtent s e := ⟨extent.geometry, extent.area, extent.offset, extent.used, extent.paths, extent.zones⟩
  have xu : e.xu = s.xu := only.xu
  have free : e.freeNext = s.freeNext := only.freeNext
  have order : e.mould.order = .dismount o := congrArg MouldManager.order mould
  rw [offerDismount_of_not_active (saveAnswer_of_not_active (.inr (extent.mountingFits.trans fits)))]
  obtain ⟨left, none⟩ := completeDismount_left .nothingSaved e
  obtain ⟨room, -⟩ := endOrder_result (r := .nothingSaved) (.inr order) (by rw [xu, cell])
  obtain ⟨queue, -⟩ := room (extent.active.trans ha) (by rw [queueRoom, xu]; exact hq)
  obtain ⟨rest, tail⟩ := (requestMirror_parting (endOrder .nothingSaved e)).queue
  refine ⟨left, none, ?_⟩
  rw [completeDismount, ← tail, queue, jobOf, jobOf, baseOf, baseOf, xu, free, List.getElem?_append_left (by simp),
    List.getElem?_concat_length]

/-- Settles O35. -/
theorem dismountTakesMouldOff : Obligations.DismountTakesMouldOff := by
  intro k notify tag s read mounted
  have takes := takeDismount_of_mounted (s := putInHand k ⟨2, notify, tag⟩ s) (o := orderOf s k tag) mounted
  have treated := runOrder_treated (head := ⟨2, notify, tag⟩) (owner := takeDismount) read
  have keeps := runOrder_keeps ⟨2, notify, tag⟩ takeDismount (p := { sounding with unit := true })
    (fun o s => (takeDismount_keeps o s).mono rfl) rfl s
  have quietly (events : s.corr.events = []) (tests : s.tester = []) (quiet : NoHit s) :=
    emptied_of_quiet (s := startDismount (orderOf s k tag) (putInHand k ⟨2, notify, tag⟩ s)) events tests quiet
  have mould := startDismount_mould (orderOf s k tag) (putInHand k ⟨2, notify, tag⟩ s)
  have empties := emptied_emptied (startDismount (orderOf s k tag) (putInHand k ⟨2, notify, tag⟩ s))
  have parting := offerSave_parting .dismount (emptied (startDismount (orderOf s k tag) (putInHand k ⟨2, notify, tag⟩ s)))
  have state := offerDismount_state (s := emptied (startDismount (orderOf s k tag) (putInHand k ⟨2, notify, tag⟩ s)))
    (congrArg MouldManager.state mould)
  rw [takes] at treated
  rw [← dismountMould_eq] at parting state
  have saves := dismountMould_saves (o := orderOf s k tag) (s := putInHand k ⟨2, notify, tag⟩ s)
  have nothing := dismountMould_saves_nothing (o := orderOf s k tag) (s := putInHand k ⟨2, notify, tag⟩ s) (head := some ⟨2, notify, tag⟩)
  generalize emptied (startDismount (orderOf s k tag) (putInHand k ⟨2, notify, tag⟩ s)) = e at *
  generalize dismountMould (orderOf s k tag) (putInHand k ⟨2, notify, tag⟩ s) = u at *
  have whole : Emptied (startDismount (orderOf s k tag) (putInHand k ⟨2, notify, tag⟩ s)) (runOrder ⟨2, notify, tag⟩ takeDismount s) :=
    (parting.emptied empties).congr treated.corr treated.tester fun c => by
      rw [State.channel, treated.front]
      exact ⟨rfl, rfl⟩
  refine ⟨_, respond_always read.1, treated.mould ▸ state, whole.events, whole.tester, whole.noHit, whole.off, whole.cut, keeps.timer rfl,
    keeps.lines, keeps.latch, keeps.outside, fun events tests quiet ha hq => ⟨fun fits => ?_, fun fits => ?_⟩⟩
  · rw [treated.mould, treated.evid, treated.queue]
    exact saves (quietly events tests quiet) ha hq fits
  · rw [treated.mould, treated.queue]
    obtain ⟨left, none, queue⟩ := nothing (quietly events tests quiet) (putInHand_cell k _ s) ha hq fits
    exact ⟨mouldLeft_congr treated.front treated.evid treated.mould left, none, queue⟩

end Sys2Proof.Machine
end

section
/-! PROOF. How a scan goes on: its start, its header, the board's cells and the take of one (R153, R155, R156, R158, R161, R166). -/

namespace Sys2Proof.Machine

open Sys2Proof

variable {s t u : State} {j k : CellNo}

/-! ## Scans asked for (R153) -/

theorem askScan_of_idle (kind : ScanKind) (h : s.xu.scan.phase = .idle) : askScan kind s = startScan kind s := if_pos h

theorem askScan_of_busy (kind : ScanKind) (h : s.xu.scan.phase ≠ .idle) :
    askScan kind s = s.onXu fun x => { x with scan := { x.scan with mark := raiseMark x.scan.mark kind } } := if_neg h

theorem lookNow_of_active (ha : active s = true) : lookNow s = askScan .look s := if_pos ha

theorem lookNow_of_not_active (ha : active s = false) : lookNow s = s := by simp [lookNow, ha]

theorem raiseMark_look (m : Option ScanKind) : raiseMark m .look = if m = some .close then some .close else some .look := by
  unfold raiseMark
  split
  next h => exact h
  · rfl

/-- A scan that is not abandoned goes on. -/
theorem scanOn_of_going {f : State → State} (h : s.xu.scan.abandoned = false) : scanOn f s = f s := by simp [scanOn, h]

theorem takesProgramme_iff :
    takesProgramme s = true ↔
      s.xu.lastTaken ≠ some s.xu.scan.generation ∧ (s.xu.scan.kind = .close ∨ s.timer.press = .stopped) := by
  simp [takesProgramme]

theorem exec_scanHeaderReadDone {bytes : List Byte} (hh : held s = false) (phase : s.xu.scan.phase = .header)
    (going : s.xu.scan.abandoned = false) (len : bytes.length = 12) : exec (.scanHeaderReadDone bytes) s = .next (headerScanned bytes s) := by
  have due : (decide (s.xu.scan.phase = .header) && decide (bytes.length = 12)) = true := by simp [phase, len]
  have answer := respond_of_due (due := fun s => decide (s.xu.scan.phase = .header) && decide (bytes.length = 12))
    (f := scanOn (headerScanned bytes)) hh due
  rw [scanOn_of_going going] at answer
  exact answer

/-- The attention level of R166 reads the area, the notice, the journal's geometry and the entries. -/
theorem attnLevel_congr {x y : Exchange} (area : y.area = x.area) (noticed : y.lastNoticed = x.lastNoticed)
    (consumed : y.consumedJournal = x.consumedJournal) (geometry : y.geometry = x.geometry) (cells : y.cells = x.cells) :
    attnLevel y = attnLevel x := by
  simp only [attnLevel, noticeUnread, anyAnswered, area, noticed, consumed, geometry, cells]

theorem headerScanned_attn (bytes : List Byte) (s : State) :
    (headerScanned bytes s).xu.attn = attnLevel { s.xu with consumedJournal := some (w32 bytes 0) } := by
  have level : (headerScanned bytes s).xu.attn = attnLevel (takeScanHeader bytes s).xu := rfl
  rw [level]
  exact attnLevel_congr rfl rfl rfl rfl rfl

theorem headerScanned_outside (bytes : List Byte) (s : State) : { headerScanned bytes s with xu := s.xu } = s := by
  cases s
  rfl

/-- Settles O50. -/
theorem scanStarts : Obligations.ScanStarts := by
  intro s hh
  have looks : exec .look s = .next (lookNow s) := respond_always hh
  rw [looks]
  refine ⟨fun ha idle => ?_, fun ha busy => ?_, fun ha => ?_, fun bytes phase going len => ?_⟩
  · rw [lookNow_of_active ha, askScan_of_idle .look idle]
    rfl
  · rw [lookNow_of_active ha, askScan_of_busy .look busy, State.onXu, raiseMark_look]
  · rw [lookNow_of_not_active ha]
  · refine ⟨_, exec_scanHeaderReadDone hh phase going len, rfl, rfl, rfl, headerScanned_attn bytes s, ?_, rfl, rfl,
      headerScanned_outside bytes s⟩
    have due := takesProgramme_iff (s := evaluateAttn (takeScanHeader bytes s))
    have phase : (headerScanned bytes s).xu.scan.phase =
        if takesProgramme (evaluateAttn (takeScanHeader bytes s)) = true then .programme else .board := rfl
    rw [phase]
    exact if_congr due rfl rfl

/-! ## The cells treated (R158) -/

/-- An ANSWERED entry of a cell found EMPTY is FREE. -/
def freeReturned (s : State) (k : CellNo) : State :=
  if wordOf s k = wordEmpty ∧ s.xu.cells[k] = .answered then s.putCell k .free else s

/-- The board read gave a POSTED cell whose entry may be taken. -/
def TakesCell (s : State) (k : CellNo) : Prop := wordOf s k = wordPosted ∧ s.xu.cells[k].takeable = true

theorem wordOf_freeReturned (k j : CellNo) (s : State) : wordOf (freeReturned s k) j = wordOf s j := by
  unfold freeReturned
  split <;> rfl

/-- The entry of a cell after another, or itself, has been looked at. -/
theorem freeReturned_cell (k j : CellNo) (s : State) :
    (freeReturned s k).xu.cells[j] = if j = k ∧ wordOf s j = wordEmpty ∧ s.xu.cells[j] = .answered then .free else s.xu.cells[j] := by
  unfold freeReturned
  by_cases same : j = k
  · subst same
    by_cases given : wordOf s j = wordEmpty ∧ s.xu.cells[j] = .answered
    · rw [if_pos given, if_pos ⟨rfl, given⟩]
      exact putCell_cell_self _ _ _
    · rw [if_neg given, if_neg (mt And.right given)]
  · rw [if_neg (c := j = k ∧ _) fun e => same e.1]
    split
    · exact putCell_cell_ne same _ _
    · rfl

/-- An entry given back may be taken before and after. -/
theorem takesCell_freeReturned (k j : CellNo) (s : State) : TakesCell (freeReturned s k) j ↔ TakesCell s j := by
  rw [TakesCell, TakesCell, wordOf_freeReturned, freeReturned_cell]
  split
  next given => simp [CellEntry.takeable, given.2.2]
  · rfl

theorem treatCells_of_take (ks : List CellNo) (h : TakesCell s k) : treatCells (k :: ks) s = scanTo (.take k) s := by
  have takes : (decide (wordOf s k = wordPosted) && s.xu.cells[k].takeable) = true := by
    rw [Bool.and_eq_true, decide_eq_true_eq]
    exact h
  exact if_pos takes

theorem treatCells_of_no_take (ks : List CellNo) (h : ¬ TakesCell s k) : treatCells (k :: ks) s = treatCells ks (freeReturned s k) := by
  have stays : ¬ (decide (wordOf s k = wordPosted) && s.xu.cells[k].takeable) = true := by
    rw [Bool.and_eq_true, decide_eq_true_eq]
    exact h
  rw [treatCells, if_neg stays, freeReturned]
  simp only [Bool.and_eq_true, decide_eq_true_eq]
  split <;> rfl

/-- Every entry given back among these cells. -/
def freeReturnedAll (ks : List CellNo) (s : State) : State := ks.foldl freeReturned s

theorem freeReturnedAll_cell (ks : List CellNo) (j : CellNo) (s : State) :
    (freeReturnedAll ks s).xu.cells[j] = if j ∈ ks ∧ wordOf s j = wordEmpty ∧ s.xu.cells[j] = .answered then .free else s.xu.cells[j] := by
  induction ks generalizing s with
  | nil => simp [freeReturnedAll]
  | cons k ks ih =>
    have rest := ih (freeReturned s k)
    rw [freeReturnedAll, List.foldl_cons]
    rw [freeReturnedAll, wordOf_freeReturned, freeReturned_cell] at rest
    rw [rest]
    generalize s.xu.cells[j] = e
    by_cases given : wordOf s j = wordEmpty ∧ e = .answered
    · by_cases same : j = k <;> simp [same, given]
    · simp only [given, and_false, if_false]

/-- Up to the first take every returned entry is given back; without a take the scan ends. -/
theorem treatCells_of_first (pre ks : List CellNo) (none : ∀ j ∈ pre, ¬ TakesCell s j) :
    treatCells (pre ++ ks) s = treatCells ks (freeReturnedAll pre s) := by
  induction pre generalizing s with
  | nil => rfl
  | cons j pre ih =>
    rw [List.cons_append, treatCells_of_no_take _ (none j List.mem_cons_self)]
    exact ih fun i mem => by
      rw [takesCell_freeReturned]
      exact none i (List.mem_cons_of_mem _ mem)

theorem takesCell_freeReturnedAll (ks : List CellNo) (j : CellNo) (s : State) : TakesCell (freeReturnedAll ks s) j ↔ TakesCell s j := by
  induction ks generalizing s with
  | nil => rfl
  | cons k ks ih => exact (ih (freeReturned s k)).trans (takesCell_freeReturned k j s)

/-- A scan that ends leaves the entries. -/
theorem endScan_cells (s : State) : (endScan s).xu.cells = s.xu.cells := by
  unfold endScan
  split <;> rfl

/-- Cells that are not treated keep their entries. -/
theorem treatCells_cell_of_not_mem (ks : List CellNo) (absent : j ∉ ks) : (treatCells ks s).xu.cells[j] = s.xu.cells[j] := by
  induction ks generalizing s with
  | nil =>
    rw [treatCells]
    simp only [endScan_cells]
  | cons k ks ih =>
    by_cases takes : TakesCell s k
    · rw [treatCells_of_take ks takes]
      rfl
    · rw [treatCells_of_no_take ks takes, ih fun mem => absent (List.mem_cons_of_mem _ mem), freeReturned_cell,
        if_neg (c := j = k ∧ _) fun e => absent (e.1 ▸ List.mem_cons_self)]

/-- The attention level after the cells is the one of the entries then (R166). -/
theorem treatBoard_attn (ks : List CellNo) (s : State) :
    (treatBoard ks s).xu.attn = attnLevel { s.xu with cells := (treatBoard ks s).xu.cells } := by
  have same := congrArg State.xu (treatCells_treated ks s).rest
  have level : (treatBoard ks s).xu.attn = attnLevel (treatCells ks s).xu := rfl
  rw [level]
  exact attnLevel_congr (by rw [← same]) (by rw [← same]) (by rw [← same]) (by rw [← same]) rfl

/-- The cells before one, it, and those after. -/
theorem allCells_eq (k : CellNo) : allCells = (allCells.filter fun j => decide (j < k)) ++ k :: cellsAfter k := by
  revert k
  decide

theorem mem_allCells (k : CellNo) : k ∈ allCells := by
  revert k
  decide

theorem self_not_mem_cellsAfter (k : CellNo) : k ∉ cellsAfter k := by simp [cellsAfter]

/-! ## The board read (R158) -/

/-- The state words read are noted. -/
def boardNoted (bytes : List Byte) (s : State) : State := s.onXu fun x => { x with scan := { x.scan with words := boardWords bytes } }

theorem wordOf_boardNoted (bytes : List Byte) (k : CellNo) (s : State) : wordOf (boardNoted bytes s) k = w32 bytes (4 * k.val) := by
  simp [wordOf, boardNoted, boardWords]

theorem takesCell_boardNoted (bytes : List Byte) (k : CellNo) (s : State) :
    TakesCell (boardNoted bytes s) k ↔ w32 bytes (4 * k.val) = wordPosted ∧ s.xu.cells[k].takeable = true := by
  rw [TakesCell, wordOf_boardNoted]
  rfl

theorem boardRead_treated (bytes : List Byte) (s : State) : Treated s (boardRead bytes s) :=
  (Treated.of_scan (t := boardNoted bytes s) rfl).trans (treatBoard_treated allCells (boardNoted bytes s))

theorem boardRead_attn (bytes : List Byte) (s : State) :
    (boardRead bytes s).xu.attn = attnLevel { s.xu with cells := (boardRead bytes s).xu.cells } :=
  treatBoard_attn allCells (boardNoted bytes s)

theorem exec_boardReadDone {bytes : List Byte} (hh : held s = false) (phase : s.xu.scan.phase = .board)
    (going : s.xu.scan.abandoned = false) (len : bytes.length = 32) : exec (.boardReadDone bytes) s = .next (boardRead bytes s) := by
  have due : (decide (s.xu.scan.phase = .board) && decide (bytes.length = 32)) = true := by simp [phase, len]
  have answer := respond_of_due (due := fun s => decide (s.xu.scan.phase = .board) && decide (bytes.length = 32))
    (f := scanOn (boardRead bytes)) hh due
  rw [scanOn_of_going going] at answer
  exact answer

/-- The first cell to be taken ends the treatment. -/
theorem boardRead_of_take {bytes : List Byte} (posted : w32 bytes (4 * k.val) = wordPosted) (takeable : s.xu.cells[k].takeable = true)
    (first : ∀ j : CellNo, j < k → w32 bytes (4 * j.val) = wordPosted → s.xu.cells[j].takeable = false) :
    treatCells allCells (boardNoted bytes s) =
      scanTo (.take k) (freeReturnedAll (allCells.filter fun j => decide (j < k)) (boardNoted bytes s)) := by
  have none : ∀ j ∈ allCells.filter (fun j => decide (j < k)), ¬ TakesCell (boardNoted bytes s) j := fun j mem => by
    obtain ⟨-, before⟩ := List.mem_filter.1 mem
    rw [takesCell_boardNoted]
    rintro ⟨word, may⟩
    rw [first j (of_decide_eq_true before) word] at may
    exact absurd may (by decide)
  rw [allCells_eq k, treatCells_of_first _ _ none,
    treatCells_of_take _ ((takesCell_freeReturnedAll _ _ _).2 ((takesCell_boardNoted _ _ _).2 ⟨posted, takeable⟩)), ← allCells_eq k]

/-- With no cell to be taken the scan ends. -/
theorem boardRead_of_no_take {bytes : List Byte}
    (none : ∀ j : CellNo, w32 bytes (4 * j.val) = wordPosted → s.xu.cells[j].takeable = false) :
    treatCells allCells (boardNoted bytes s) = endScan (freeReturnedAll allCells (boardNoted bytes s)) := by
  have untaken : ∀ j ∈ allCells, ¬ TakesCell (boardNoted bytes s) j := fun j _ => by
    rw [takesCell_boardNoted]
    rintro ⟨word, may⟩
    rw [none j word] at may
    exact absurd may (by decide)
  have all := treatCells_of_first allCells [] untaken
  rwa [List.append_nil] at all

theorem freeReturnedAll_mark (ks : List CellNo) (s : State) : (freeReturnedAll ks s).xu.scan = s.xu.scan := by
  unfold freeReturnedAll
  induction ks generalizing s with
  | nil => rfl
  | cons k ks ih =>
    refine (ih _).trans ?_
    unfold freeReturned
    split <;> rfl

theorem endScan_of_unmarked (h : s.xu.scan.mark = none) : (endScan s).xu.scan.phase = .idle := by
  rw [endScan, h]
  rfl

/-! ## The take (R158, R161) -/

theorem takeDone_of_posted (phase : s.xu.scan.phase = .take k) (going : s.xu.scan.abandoned = false) :
    takeDone wordPosted s = cellTaken k (putStateWord s.xu.scan.base k wordTaken s) := by
  rw [takeDone, phase]
  exact (if_pos rfl).trans (scanOn_of_going going)

theorem cellTaken_outside (k : CellNo) (base : Addr) (s : State) :
    { cellTaken k (putStateWord base k wordTaken s) with area := s.area, xu := s.xu } = s := by
  cases s
  rfl

theorem takeDone_of_other {found : Word} (phase : s.xu.scan.phase = .take k) (going : s.xu.scan.abandoned = false)
    (other : found ≠ wordPosted) : takeDone found s = cellLeft k found s := by
  rw [takeDone, phase]
  exact (if_neg other).trans (scanOn_of_going going)

theorem endScan_phase (s : State) : (endScan s).xu.scan.phase = .header ∨ (endScan s).xu.scan.phase = .idle := by
  unfold endScan
  split
  · exact .inl rfl
  · exact .inr rfl

/-- Cells treated read no cell. -/
theorem treatCells_phase (ks : List CellNo) (s : State) : (treatCells ks s).xu.scan.phase ≠ .cellRead j := by
  induction ks generalizing s with
  | nil => rcases endScan_phase s with h | h <;> rw [treatCells, h] <;> nofun
  | cons k ks ih =>
    by_cases takes : TakesCell s k
    · rw [treatCells_of_take ks takes]
      nofun
    · rw [treatCells_of_no_take ks takes]
      exact ih _

/-- The entry of a cell whose take has failed. -/
def entryLeft (k : CellNo) (found : Word) (s : State) : State :=
  if found = wordEmpty ∧ s.xu.cells[k] = .answered then s.putCell k .free else s

theorem entryLeft_treated (k : CellNo) (found : Word) (s : State) : Treated s (entryLeft k found s) := by
  unfold entryLeft
  split
  next given => exact putCell_free_treated given.2
  · exact .of_scan rfl

theorem entryLeft_cell (k : CellNo) (found : Word) (s : State) :
    (entryLeft k found s).xu.cells[k] = if found = wordEmpty ∧ s.xu.cells[k] = .answered then .free else s.xu.cells[k] := by
  unfold entryLeft
  split
  · exact putCell_cell_self _ _ _
  · rfl

theorem cellLeft_eq (k : CellNo) (found : Word) (s : State) : cellLeft k found s = treatBoard (cellsAfter k) (entryLeft k found s) := rfl

/-- Settles O52. -/
theorem cellsTaken : Obligations.CellsTaken := by
  intro k s hh going
  refine ⟨fun bytes phase len posted takeable first => ?_, fun bytes phase len unmarked none => ?_, fun phase => ?_,
    fun found phase other => ?_⟩
  · have treated := boardRead_treated bytes s
    have took := boardRead_of_take posted takeable first
    refine ⟨_, exec_boardReadDone hh phase going len, ?_, fun j => ?_, boardRead_attn bytes s, treated.queue, treated.outsideUnit⟩
    · exact congrArg (fun u : State => u.xu.scan.phase) took
    · have cells : (boardRead bytes s).xu.cells[j] = (treatCells allCells (boardNoted bytes s)).xu.cells[j] := rfl
      have entry := freeReturnedAll_cell (allCells.filter fun j => decide (j < k)) j (boardNoted bytes s)
      rw [wordOf_boardNoted] at entry
      rw [cells, took]
      refine entry.trans (if_congr ?_ rfl rfl)
      simp [List.mem_filter, mem_allCells, boardNoted]
  · have treated := boardRead_treated bytes s
    have ended := boardRead_of_no_take none
    refine ⟨_, exec_boardReadDone hh phase going len, ?_, fun j => ?_, boardRead_attn bytes s, treated.queue, treated.outsideUnit⟩
    · refine (congrArg (fun u : State => u.xu.scan.phase) ended).trans (endScan_of_unmarked ?_)
      rw [freeReturnedAll_mark]
      exact unmarked
    · have cells : (boardRead bytes s).xu.cells[j] = (treatCells allCells (boardNoted bytes s)).xu.cells[j] := rfl
      have entry := freeReturnedAll_cell allCells j (boardNoted bytes s)
      rw [wordOf_boardNoted] at entry
      rw [cells, ended]
      simp only [endScan_cells]
      refine entry.trans (if_congr ?_ rfl rfl)
      simp [mem_allCells, boardNoted]
  · refine ⟨_, (respond_always hh).trans (congrArg _ (takeDone_of_posted phase going)), rfl, rfl, putCell_cell_self _ _ _,
      fun j ne => putCell_cell_ne ne _ _, ?_, rfl,
      cellTaken_outside k _ s⟩
    exact land_lands ⟨addrAt s.xu.scan.base (0x100 + 64 * k.val), bytesWord wordTaken⟩ s (Nat.le_of_lt (by decide : 4 < 2 ^ 64))
  · have treated := (entryLeft_treated k found s).trans (treatBoard_treated (cellsAfter k) _)
    rw [← cellLeft_eq] at treated
    refine ⟨_, (respond_always hh).trans (congrArg _ (takeDone_of_other phase going other)), ?_, ?_, ?_, treatCells_phase _ _,
      treated.queue, treated.outsideUnit⟩
    · conv_rhs => rw [← treated.rest]
    · refine (treatCells_cell_of_not_mem (cellsAfter k) (self_not_mem_cellsAfter k)).trans (entryLeft_cell k found s)
    · have level := treatBoard_attn (cellsAfter k) (entryLeft k found s)
      have same := congrArg State.xu (entryLeft_treated k found s).rest
      rw [cellLeft_eq, level]
      exact attnLevel_congr (by rw [← same]) (by rw [← same]) (by rw [← same]) (by rw [← same]) rfl

end Sys2Proof.Machine
end

section
/-! PROOF. What the mould manager's saves, re-offered or given up, make of the exchange unit; the enable's end, the disable and the bus
errors (R127, R149 to R152, R175). -/

namespace Sys2Proof.Machine

open Sys2Proof

variable {s t u : State} {j k : CellNo} {saver : SavedBy}

/-! ## Saves offered again and ended -/

/-- No job is in issue, or one from its first operation on. -/
def IssueFresh (s : State) : Prop := s.xu.issue = none ∨ s.xu.issue = some { accepted := 0, onBus := true }

/-- Only entries change, and those become FREE. -/
structure Freed (x y : Exchange) : Prop where
  rest : { y with cells := x.cells } = x
  cell : ∀ k : CellNo, y.cells[k] = x.cells[k] ∨ y.cells[k] = .free

theorem Freed.refl (x : Exchange) : Freed x x := ⟨rfl, fun _ => .inl rfl⟩

theorem Freed.trans {x y z : Exchange} (h : Freed x y) (k : Freed y z) : Freed x z where
  rest := (congrArg (fun e : Exchange => { e with cells := x.cells }) k.rest).trans h.rest
  cell c := by
    rcases k.cell c with same | free
    · rcases h.cell c with same' | free'
      · exact .inl (same.trans same')
      · exact .inr (same.trans free')
    · exact .inr free

/-- What does not read the entries stands. -/
theorem Freed.field {x y : Exchange} (h : Freed x y) {α : Type} {f : Exchange → α} (blind : ∀ x c, f { x with cells := c } = f x) :
    f y = f x := (blind y x.cells).symm.trans (congrArg f h.rest)

/-- An entry put at FREE. -/
theorem putCell_free_freed (k : CellNo) (s : State) : Freed s.xu (s.putCell k .free).xu where
  rest := rfl
  cell c := by
    by_cases same : c = k
    · subst same
      exact .inr (putCell_cell_self _ _ _)
    · exact .inl (putCell_cell_ne same _ _)

/-- What a save that is offered again or ended leaves of the exchange unit. Outside ACTIVE only entries become FREE. -/
structure Reoffered (s t : State) : Prop where
  area : t.xu.area = s.xu.area
  scan : t.xu.scan = s.xu.scan
  fresh : IssueFresh s → IssueFresh t
  ordered : s.mould.order = .none → t.mould.order = .none ∧ t.xu.cells = s.xu.cells
  read : s.mould.read = .none → t.mould.read = .none
  settled : ∀ k : CellNo, (∀ take head, s.xu.cells[k] ≠ .inHand take head) → t.xu.cells[k] = s.xu.cells[k]
  inactive : active s = false → Freed s.xu t.xu

namespace Reoffered

theorem active (h : Reoffered s t) : Machine.active t = Machine.active s := active_congr h.area

theorem trans (h : Reoffered s t) (k : Reoffered t u) : Reoffered s u where
  area := k.area.trans h.area
  scan := k.scan.trans h.scan
  fresh e := k.fresh (h.fresh e)
  ordered e := by
    obtain ⟨order, cells⟩ := h.ordered e
    obtain ⟨order', cells'⟩ := k.ordered order
    exact ⟨order', cells'.trans cells⟩
  read e := k.read (h.read e)
  settled c e := by
    have same := h.settled c e
    exact (k.settled c fun take head => by rw [same]; exact e take head).trans same
  inactive e := (h.inactive e).trans (k.inactive (h.active.trans e))

/-- The exchange unit stands. -/
theorem of_xu (xu : t.xu = s.xu) (order : s.mould.order = .none → t.mould.order = .none) (read : s.mould.read = .none → t.mould.read = .none) :
    Reoffered s t where
  area := by rw [xu]
  scan := by rw [xu]
  fresh e := by rw [IssueFresh, xu]; exact e
  ordered e := ⟨order e, by rw [xu]⟩
  read := read
  settled _ _ := by rw [xu]
  inactive _ := xu ▸ .refl s.xu

theorem refl (s : State) : Reoffered s s := of_xu rfl id id

end Reoffered

theorem addJob_fresh (b : JobBody) (h : IssueFresh s) : IssueFresh (addJob b s) := by
  unfold IssueFresh addJob
  dsimp only
  split
  · exact .inr rfl
  · exact h

/-- A job that joins the queue while ACTIVE. -/
theorem addJob_reoffered (b : JobBody) (ha : active s = true) : Reoffered s (addJob b s) :=
  ⟨rfl, rfl, addJob_fresh b, fun e => ⟨e, rfl⟩, id, fun _ _ => rfl, fun e => absurd (ha.symm.trans e) (by decide)⟩

theorem requestMirror_reoffered (s : State) : Reoffered s (requestMirror s) := by
  by_cases ha : active s = true
  · by_cases hq : queueRoom s = true
    · rw [requestMirror_of_room ha hq]
      refine ⟨rfl, rfl, fun e => addJob_fresh _ e, fun e => ⟨e, rfl⟩, id, fun _ _ => rfl, fun e => absurd (ha.symm.trans e) (by decide)⟩
    · rw [requestMirror_of_no_room (.inr (Bool.eq_false_iff.2 hq))]
      exact .refl s
  · rw [requestMirror_of_no_room (.inl (Bool.eq_false_iff.2 ha))]
    exact .refl s

/-- Changing an entry that is in hand leaves those that are not. -/
theorem putCell_of_not_inHand {take : Word} {head : Option OrderHead} {c : CellNo} (e : CellEntry) (cell : s.xu.cells[k] = .inHand take head)
    (other : ∀ take head, s.xu.cells[c] ≠ .inHand take head) : (s.putCell k e).xu.cells[c] = s.xu.cells[c] :=
  putCell_cell_ne (fun same : c = k => other take head (same ▸ cell)) _ _

/-- A result changes an entry in hand, and outside ACTIVE frees it. -/
theorem resultGoesOn_reoffered {t : Word} {h : Option OrderHead} (cell : s.xu.cells[k] = .inHand t h) (take : Word)
    (head : Option OrderHead) (r : OrderResult) (order : s.mould.order ≠ .none) : Reoffered s (resultGoesOn k take head r s) := by
  unfold resultGoesOn
  split
  · exact ⟨rfl, rfl, id, fun e => absurd e order, id, fun c other => putCell_of_not_inHand _ cell other, fun _ => putCell_free_freed k s⟩
  next ha =>
    have ha : active s = true := by simpa using ha
    split
    · exact addJob_reoffered _ ha
    · exact ⟨rfl, rfl, id, fun e => absurd e order, id, fun c other => putCell_of_not_inHand _ cell other,
        fun e => absurd (ha.symm.trans e) (by decide)⟩

theorem giveResult_reoffered (o : OrderRef) (r : OrderResult) (order : s.mould.order ≠ .none) : Reoffered s (giveResult o r s) := by
  unfold giveResult
  split
  next cell =>
    split
    · exact resultGoesOn_reoffered cell _ _ _ order
    · exact .refl s
  · exact .refl s

theorem answerOrder_reoffered (r : OrderResult) (s : State) : Reoffered s (answerOrder r s) := by
  unfold answerOrder
  split
  · exact .refl s
  next o h => exact giveResult_reoffered o r (by rw [h]; nofun)
  next o h => exact giveResult_reoffered o r (by rw [h]; nofun)

theorem leaveMould_read (s : State) : (leaveMould s).mould.read = .none := rfl

theorem leaveMould_reoffered (s : State) : Reoffered s (leaveMould s) :=
  .of_xu (leaveMould_xu s) (fun e => (leaveMould_order s).trans e) fun _ => leaveMould_read s

theorem endOrder_reoffered (r : OrderResult) (s : State) : Reoffered s (endOrder r s) :=
  (leaveMould_reoffered s).trans ((answerOrder_reoffered r (leaveMould s)).trans
    (.of_xu (t := dropOrder (answerOrder r (leaveMould s))) rfl (fun _ => rfl) id))

theorem completeDismount_reoffered (r : OrderResult) (s : State) : Reoffered s (completeDismount r s) :=
  (endOrder_reoffered r s).trans (requestMirror_reoffered _)

theorem leaveWithMirror_reoffered (s : State) : Reoffered s (leaveWithMirror s) := (leaveMould_reoffered s).trans (requestMirror_reoffered _)

theorem createSave_reoffered (saver : SavedBy) (ha : active s = true) : Reoffered s (createSave saver s) :=
  .trans (t := s.onMould fun m => { m with saveCount := m.saveCount + 1, pendingSave := none }) (.of_xu rfl id id) (addJob_reoffered _ ha)

theorem active_of_created (h : saveAnswer s = .created) : active s = true := by
  unfold saveAnswer at h
  split at h
  · cases h
  next going => simp_all

theorem offerSave_reoffered (saver : SavedBy) (s : State) : Reoffered s (offerSave saver s) := by
  unfold offerSave
  split
  next created => exact (createSave_reoffered _ (active_of_created created)).trans (leaveWithMirror_reoffered _)
  next created _ => exact createSave_reoffered _ (active_of_created created)
  · exact .of_xu rfl id id
  · exact .of_xu rfl id id
  · exact completeDismount_reoffered _ s
  · exact leaveWithMirror_reoffered s

theorem offerPending_reoffered (s : State) : Reoffered s (offerPending s) := by
  unfold offerPending
  split
  · exact offerSave_reoffered _ s
  · exact offerSave_reoffered _ s
  · exact .refl s

theorem saveEnded_reoffered (saver : SavedBy) (written : Bool) (s : State) : Reoffered s (saveEnded saver written s) := by
  unfold saveEnded
  split
  · exact completeDismount_reoffered _ s
  · exact .refl s

theorem reportSave_reoffered (b : JobBody) (written : Bool) (s : State) : Reoffered s (reportSave b written s) := by
  unfold reportSave
  split
  · exact saveEnded_reoffered _ _ s
  · exact .refl s

theorem reportDiscarded_reoffered (js : List Job) (s : State) : Reoffered s (reportDiscarded js s) := by
  unfold reportDiscarded
  induction js generalizing s with
  | nil => exact .refl s
  | cons j js ih => exact (reportSave_reoffered j.body false s).trans (ih _)

theorem cancelReading_reoffered (s : State) : Reoffered s (cancelReading s) := by
  unfold cancelReading
  split
  · exact endOrder_reoffered _ s
  · exact .refl s

/-! ## When the mould leaves by them -/

theorem offerPending_of_left (h : MouldLeft s) : offerPending s = s := by
  obtain ⟨-, -, -, -, -, -, -, pending, -⟩ := h
  rw [offerPending, pending]

theorem cancelReading_of_not_reading (h : ¬ (s.mould.state = .mounting ∧ s.mould.phase = .reading)) : cancelReading s = s := if_neg h

theorem cancelReading_of_left (h : MouldLeft s) : cancelReading s = s := by
  obtain ⟨state, -⟩ := h
  exact cancelReading_of_not_reading fun e => absurd (state.symm.trans e.1) (by decide)

theorem cancelReading_left (h : s.mould.state = .mounting ∧ s.mould.phase = .reading) : MouldLeft (cancelReading s) := by
  rw [cancelReading, if_pos h]
  exact (endOrder_left _ s).1

/-- Outside ACTIVE a save that the mould's leaving waits for is given up. -/
theorem offerPending_left (ha : active s = false) (h : s.mould.pendingSave = some .dismount ∨ s.mould.pendingSave = some .unplanned) :
    MouldLeft (offerPending s) := by
  have refused := saveAnswer_of_not_active (.inl ha)
  rcases h with h | h
  · rw [offerPending, h]
    dsimp only
    rw [offerDismount_of_not_active refused]
    exact (completeDismount_left _ s).1
  · rw [offerPending, h]
    dsimp only
    rw [offerUnplanned_of_not_active refused]
    exact leaveWithMirror_left s

theorem offerPending_of_none (h : s.mould.pendingSave ≠ some .dismount) (h' : s.mould.pendingSave ≠ some .unplanned) : offerPending s = s := by
  unfold offerPending
  split
  next e => exact absurd e h
  next e => exact absurd e h'
  · rfl

theorem saveEnded_of_staying {written : Bool} (h : ¬ (saver = .dismount ∧ s.mould.state = .dismounting)) : saveEnded saver written s = s :=
  if_neg h

theorem reportSave_of_staying {written : Bool} (b : JobBody) (h : s.mould.state ≠ .dismounting) : reportSave b written s = s := by
  unfold reportSave
  split
  · exact saveEnded_of_staying fun e => h e.2
  · rfl

theorem reportDiscarded_of_staying (js : List Job) (h : s.mould.state ≠ .dismounting) : reportDiscarded js s = s := by
  unfold reportDiscarded
  induction js with
  | nil => rfl
  | cons j js ih => rw [List.foldl_cons, reportSave_of_staying j.body h, ih]

/-- The job is a DISMOUNT's save. -/
def IsDismountSave (j : Job) : Prop := ∃ n c, j.body = .save n c ∧ c.savedBy = .dismount

theorem reportSave_of_other {written : Bool} {j : Job} (h : ¬ IsDismountSave j) : reportSave j.body written s = s := by
  cases body : j.body with
  | save n c => exact saveEnded_of_staying fun e => h ⟨n, c, body, e.1⟩
  | cycle | condition | located | mirror | result => rfl

theorem reportSave_left {written : Bool} {j : Job} (h : IsDismountSave j) (state : s.mould.state = .dismounting) :
    MouldLeft (reportSave j.body written s) := by
  obtain ⟨n, c, body, saver⟩ := h
  rw [body, reportSave, saveEnded, if_pos ⟨saver, state⟩]
  exact (completeDismount_left _ s).1

theorem reportDiscarded_of_none {js : List Job} (h : ∀ j ∈ js, ¬ IsDismountSave j) : reportDiscarded js s = s := by
  unfold reportDiscarded
  induction js with
  | nil => rfl
  | cons j js ih => rw [List.foldl_cons, reportSave_of_other (h j List.mem_cons_self), ih fun i mem => h i (List.mem_cons_of_mem _ mem)]

theorem not_dismounting_of_left (h : MouldLeft s) : s.mould.state ≠ .dismounting := by
  obtain ⟨state, -⟩ := h
  rw [state]
  nofun

/-- A discarded DISMOUNT save ends the dismount. -/
theorem reportDiscarded_left {js : List Job} (state : s.mould.state = .dismounting) (h : ∃ j ∈ js, IsDismountSave j) :
    MouldLeft (reportDiscarded js s) := by
  induction js with
  | nil =>
    obtain ⟨_, mem, -⟩ := h
    exact absurd mem List.not_mem_nil
  | cons j js ih =>
    by_cases first : IsDismountSave j
    · have left := reportSave_left (written := false) first state
      have rest := reportDiscarded_of_staying js (not_dismounting_of_left left)
      rw [reportDiscarded] at rest ⊢
      rw [List.foldl_cons, rest]
      exact left
    · obtain ⟨i, mem, save⟩ := h
      have mem' : i ∈ js := (List.mem_cons.1 mem).resolve_left fun e => first (e ▸ save)
      rw [reportDiscarded, List.foldl_cons, reportSave_of_other first]
      exact ih ⟨i, mem', save⟩

/-! ## The enable's end (R150) -/

theorem exec_enableHeaderReadDone {bytes : List Byte} (hh : held s = false) (reads : s.xu.enabling = .headerRead) (len : bytes.length = 44) :
    exec (.enableHeaderReadDone bytes) s = .next (checkHeader bytes s) := by
  have due : headerAnswered bytes s = true := by simp [headerAnswered, reads, len]
  have answer := respond_of_due (f := takeHeader bytes) hh due
  rw [takeHeader, if_pos reads] at answer
  exact answer

theorem checkHeader_of_good {bytes : List Byte} (good : headerCode bytes = 0) :
    checkHeader bytes s = (fixHeader bytes s).onXu fun x => { x with enabling := .capabilityWrite (capabilityWrite s) } := if_pos good

theorem checkHeader_of_bad {bytes : List Byte} (bad : headerCode bytes ≠ 0) :
    checkHeader bytes s =
      areaChanged (s.onXu fun x => { x with area := .headerInvalid, checkCode := headerCode bytes, enabling := .none }) := if_neg bad

/-- The capability write has landed and the area is ACTIVE. -/
def enabled (w : BusWrite) (s : State) : State := (s.land w).onXu fun x => { x with area := .active, enabling := .none }

theorem becomeActive_eq (w : BusWrite) (s : State) : becomeActive w s = askScan .look (evaluateAttn (areaChanged (enabled w s))) := rfl

/-- The area is ACTIVE, the enable is over, and an idle scan unit scans. -/
theorem becomeActive_unit (w : BusWrite) (s : State) :
    (becomeActive w s).xu.area = .active ∧ (becomeActive w s).xu.enabling = .none
      ∧ (s.xu.scan.phase = .idle → (becomeActive w s).xu.scan.phase = .header ∧ (becomeActive w s).xu.scan.kind = .look) := by
  have changed := (areaChanged_keeps (enabled w s)).unit rfl
  have asked := (askScan_keeps (p := exchangeOnly) .look (evaluateAttn (areaChanged (enabled w s)))).unit rfl
  have scan : (areaChanged (enabled w s)).xu.scan = s.xu.scan := (offerPending_reoffered (enabled w s)).scan
  rw [becomeActive_eq]
  refine ⟨asked.area.trans changed.area, asked.enabling.trans changed.enabling, fun idle => ?_⟩
  have idle' : (evaluateAttn (areaChanged (enabled w s))).xu.scan.phase = .idle := (congrArg ScanUnit.phase scan).trans idle
  rw [askScan_of_idle .look idle']
  exact ⟨rfl, rfl⟩

/-- Settles O48. -/
theorem enableCompletes : Obligations.EnableCompletes := by
  intro s hh
  refine ⟨fun bytes reads len good => ?_, fun bytes reads len bad => ?_, fun w writes len => ?_⟩
  · rw [exec_enableHeaderReadDone hh reads len, checkHeader_of_good good]
    rfl
  · have keeps := checkHeader_keeps bytes s
    have changed := (areaChanged_keeps
      (s.onXu fun x => { x with area := .headerInvalid, checkCode := headerCode bytes, enabling := .none })).unit rfl
    rw [exec_enableHeaderReadDone hh reads len]
    rw [checkHeader_of_bad bad] at keeps ⊢
    exact ⟨_, rfl, changed.area, changed.checkCode, changed.enabling, changed.en, keeps.timer rfl, keeps.lines, keeps.latch, keeps.outside⟩
  · have takes : takeCapability s = becomeActive w s := by rw [takeCapability, writes]
    have keeps := becomeActive_keeps w s
    obtain ⟨area, done, scans⟩ := becomeActive_unit w s
    obtain ⟨inside, outside⟩ := land_lands w s len
    refine ⟨_, (respond_always hh).trans (congrArg _ takes), area, done, ?_, scans, keeps.timer rfl, keeps.lines, keeps.latch,
      keeps.board, keeps.variant, keeps.pending⟩
    rw [Lands, keeps.area]
    exact ⟨inside, outside⟩

/-! ## The disable (R151, R175) -/

/-- EN is cleared and the scan abandoned; what is discarded has still to be reported. -/
def cleared (s : State) : State := abandonScan (s.onXu clearUnit)

theorem disableArea_of_enabled (h : s.xu.enabling = .none) :
    disableArea s = offerPending (cancelReading (reportDiscarded (waitingJobs s.xu) (cleared s))) := by
  rw [disableArea, if_neg (by simp [h])]
  rfl

theorem cleared_inactive (s : State) : active (cleared s) = false := rfl

/-- The reports of the discarded saves, and of the change of area. -/
theorem disable_reoffered (s : State) :
    Reoffered (cleared s) (offerPending (cancelReading (reportDiscarded (waitingJobs s.xu) (cleared s)))) :=
  (reportDiscarded_reoffered _ _).trans ((cancelReading_reoffered _).trans (offerPending_reoffered _))

/-- The mould leaves at a disable while it is being read, or once its save is given up. -/
theorem disable_left (js : List Job) (ha : active s = false)
    (h : (s.mould.state = .mounting ∧ s.mould.phase = .reading) ∨ s.mould.pendingSave = some .dismount
      ∨ s.mould.pendingSave = some .unplanned ∨ (s.mould.state = .dismounting ∧ ∃ j ∈ js, IsDismountSave j)) :
    MouldLeft (offerPending (cancelReading (reportDiscarded js s))) := by
  have kept {u : State} (left : MouldLeft u) : MouldLeft (offerPending (cancelReading u)) := by
    rw [cancelReading_of_left left, offerPending_of_left left]
    exact left
  by_cases saves : s.mould.state = .dismounting ∧ ∃ j ∈ js, IsDismountSave j
  · exact kept (reportDiscarded_left saves.1 saves.2)
  · have unreported : reportDiscarded js s = s := by
      by_cases state : s.mould.state = .dismounting
      · exact reportDiscarded_of_none fun j mem save => saves ⟨state, j, mem, save⟩
      · exact reportDiscarded_of_staying js state
    rw [unreported]
    by_cases reading : s.mould.state = .mounting ∧ s.mould.phase = .reading
    · have left := cancelReading_left reading
      rw [offerPending_of_left left]
      exact left
    · rw [cancelReading_of_not_reading reading]
      refine offerPending_left ha ?_
      rcases h with h | h | h | h
      · exact absurd h reading
      · exact .inl h
      · exact .inr h
      · exact absurd h saves

/-- Otherwise a disable leaves the mould. -/
theorem disable_stays (js : List Job) (reading : ¬ (s.mould.state = .mounting ∧ s.mould.phase = .reading))
    (dismount : s.mould.pendingSave ≠ some .dismount) (unplanned : s.mould.pendingSave ≠ some .unplanned)
    (saves : ¬ (s.mould.state = .dismounting ∧ ∃ j ∈ js, IsDismountSave j)) : offerPending (cancelReading (reportDiscarded js s)) = s := by
  have unreported : reportDiscarded js s = s := by
    by_cases state : s.mould.state = .dismounting
    · exact reportDiscarded_of_none fun j mem save => saves ⟨state, j, mem, save⟩
    · exact reportDiscarded_of_staying js state
  rw [unreported, cancelReading_of_not_reading reading, offerPending_of_none dismount unplanned]

theorem cleared_cell (s : State) (k : CellNo) : (cleared s).xu.cells[k] = .free := Vector.getElem_replicate k.isLt

/-- Settles O49. -/
theorem disableClears : Obligations.DisableClears := by
  intro s hh
  have clears : exec .disable s = .next (clearEnable s) := respond_always hh
  rw [clears]
  refine ⟨fun en => ?_, fun en idle => ?_, fun en going => ?_⟩
  · simp [clearEnable, en]
  · have keeps := disableArea_keeps s
    have reoffered := disable_reoffered s
    have left := disable_left (s := cleared s) (waitingJobs s.xu) (cleared_inactive s)
    have stays := disable_stays (s := cleared s) (waitingJobs s.xu)
    have clearing : clearEnable s = disableArea s := if_pos en
    rw [clearing]
    rw [disableArea_of_enabled idle] at keeps ⊢
    generalize offerPending (cancelReading (reportDiscarded (waitingJobs s.xu) (cleared s))) = t at *
    have freed := reoffered.inactive (cleared_inactive s)
    have field {α : Type} {f : Exchange → α} (blind : ∀ x c, f { x with cells := c } = f x) := freed.field blind
    refine ⟨t, rfl, field (f := (·.en)) fun _ _ => rfl, field (f := (·.area)) fun _ _ => rfl, field (f := (·.attn)) fun _ _ => rfl, field (f := (·.carry)) fun _ _ => rfl,
      field (f := (·.nextJournal)) fun _ _ => rfl, field (f := (·.nextLocated)) fun _ _ => rfl, field (f := (·.consumedJournal)) fun _ _ => rfl,
      field (f := (·.consumedLocated)) fun _ _ => rfl, fun k => ?_, field (f := (·.queue)) fun _ _ => rfl, field (f := (·.scan.mark)) fun _ _ => rfl,
      field (f := (·.scan.abandoned)) fun _ _ => rfl, field (f := (·.accruals)) fun _ _ => rfl, left, fun reading dismount unplanned saves => ?_,
      keeps.timer rfl, keeps.corr rfl, keeps.tester rfl, keeps.lines, keeps.latch, keeps.outside⟩
    · exact (freed.cell k).elim (·.trans (cleared_cell s k)) id
    · rw [stays reading dismount unplanned saves]
      exact ⟨rfl, rfl, rfl⟩
  · have clearing : clearEnable s = (abandonEnable s).onXu fun x => { dropSequences x with en := false } :=
      (if_pos en).trans (if_pos going)
    rw [clearing]
    exact ⟨_, rfl, rfl, rfl, rfl, rfl, rfl, rfl, rfl, rfl, rfl⟩

end Sys2Proof.Machine
end

section
/-! PROOF. The bus errors (R111, R152). -/

namespace Sys2Proof.Machine

open Sys2Proof

variable {s t u v : State} {k : CellNo} {code : Nat} {own : State → State}

/-! ## AREA_FAULT (R152) -/

/-- The area is AREA_FAULT with this code, the enable and the scan abandoned; the failing operation has still to end. -/
def areaFaulted (code : Nat) (s : State) : State :=
  abandonScan ((abandonEnable s).onXu fun x => { x with area := .areaFault, checkCode := code, attn := false })

/-- What follows the failing operation's end. -/
def faultSettled (s : State) : State := areaChanged (cancelReading (dropWaiting s))

theorem areaFault_eq (h : faults s.xu = true) : areaFault code own s = faultSettled (own (areaFaulted code s)) := if_pos h

theorem faults_of_active (h : s.xu.area = .active) : faults s.xu = true := by simp [faults, h]

theorem faults_of_enabling (h : s.xu.enabling ≠ .none) : faults s.xu = true := by simp [faults, h]

/-! ### Waiting results discarded -/

/-- One waiting result discarded. -/
def dropCell (s : State) (k : CellNo) : State :=
  match s.xu.cells[k] with
  | .resultWaiting _ _ _ => s.putCell k .free
  | _ => s

theorem dropWaiting_eq (s : State) : dropWaiting s = allCells.foldl dropCell s := rfl

theorem dropCell_freed (k : CellNo) (s : State) : { dropCell s k with xu := s.xu } = s ∧ Freed s.xu (dropCell s k).xu := by
  unfold dropCell
  split
  · exact ⟨rfl, putCell_free_freed k s⟩
  · exact ⟨rfl, .refl _⟩

theorem foldl_dropCell_freed (ks : List CellNo) (s : State) :
    { ks.foldl dropCell s with xu := s.xu } = s ∧ Freed s.xu (ks.foldl dropCell s).xu := by
  induction ks generalizing s with
  | nil => exact ⟨rfl, .refl _⟩
  | cons k ks ih =>
    obtain ⟨rest, freed⟩ := ih (dropCell s k)
    obtain ⟨first, freed'⟩ := dropCell_freed k s
    exact ⟨(congrArg (fun u : State => { u with xu := s.xu }) rest).trans first, freed'.trans freed⟩

/-- A FREE entry stays FREE while entries become FREE. -/
theorem Freed.free {x y : Exchange} (h : Freed x y) (free : x.cells[k] = .free) : y.cells[k] = .free := (h.cell k).elim (·.trans free) id

/-- Every waiting result is discarded. -/
theorem foldl_dropCell_cell (ks : List CellNo) (mem : k ∈ ks) {take : Word} {head : Option OrderHead} {r : OrderResult}
    (waits : s.xu.cells[k] = .resultWaiting take head r) : (ks.foldl dropCell s).xu.cells[k] = .free := by
  induction ks generalizing s with
  | nil => exact absurd mem List.not_mem_nil
  | cons c ks ih =>
    obtain ⟨-, freed⟩ := foldl_dropCell_freed ks (dropCell s c)
    by_cases same : k = c
    · subst same
      refine freed.free ?_
      rw [dropCell, waits]
      exact putCell_cell_self _ _ _
    · rcases (dropCell_freed c s).2.cell k with stays | free
      · exact ih ((List.mem_cons.1 mem).resolve_left same) (stays.trans waits)
      · exact freed.free free

/-! ### What follows the failing operation's end -/

/-- The failing operation has ended: the area stands at AREA_FAULT, and a waiting result and a MOUNT being read are still there. -/
structure Faulted (code : Nat) (s v : State) : Prop where
  area : v.xu.area = .areaFault
  attn : v.xu.attn = false
  en : v.xu.en = s.xu.en
  code : v.xu.checkCode = code
  waits : ∀ (k : CellNo) (take : Word) (head : Option OrderHead) (r : OrderResult), s.xu.cells[k] = .resultWaiting take head r →
    v.xu.cells[k] = .resultWaiting take head r ∨ v.xu.cells[k] = .free
  reading : s.mould.state = .mounting → s.mould.phase = .reading → v.mould.state = .mounting ∧ v.mould.phase = .reading

theorem areaFaulted_faulted (code : Nat) (s : State) : Faulted code s (areaFaulted code s) :=
  ⟨rfl, rfl, rfl, rfl, fun _ _ _ _ h => .inl h, fun h h' => ⟨h, h'⟩⟩

theorem Faulted.inactive (h : Faulted code s v) : active v = false := by simp [active, h.area]

/-- Entries that become FREE, with the mould's state and phase standing. -/
theorem Faulted.freed (h : Faulted code s v) (freed : Freed v.xu u.xu)
    (reading : v.mould.state = .mounting → u.mould.state = .mounting ∧ u.mould.phase = v.mould.phase) : Faulted code s u where
  area := (freed.field (f := (·.area)) fun _ _ => rfl).trans h.area
  attn := (freed.field (f := (·.attn)) fun _ _ => rfl).trans h.attn
  en := (freed.field (f := (·.en)) fun _ _ => rfl).trans h.en
  code := (freed.field (f := (·.checkCode)) fun _ _ => rfl).trans h.code
  waits k take head r e := by
    rcases h.waits k take head r e with waits | free
    · exact (freed.cell k).imp (·.trans waits) id
    · exact .inr (freed.free free)
  reading e e' := by
    obtain ⟨state, phase⟩ := h.reading e e'
    obtain ⟨state', phase'⟩ := reading state
    exact ⟨state', phase'.trans phase⟩

theorem dropWaiting_mould (s : State) : (dropWaiting s).mould = s.mould := (dropWaiting_keeps (p := exchangeOnly) s).mould rfl

theorem dropWaiting_freed (s : State) : Freed s.xu (dropWaiting s).xu := by
  rw [dropWaiting_eq]
  exact (foldl_dropCell_freed allCells s).2

theorem dropWaiting_inactive (ha : active s = false) : active (dropWaiting s) = false :=
  (active_congr ((dropWaiting_freed s).field (f := (·.area)) fun _ _ => rfl)).trans ha

theorem dropWaiting_cell {take : Word} {head : Option OrderHead} {r : OrderResult} (waits : s.xu.cells[k] = .resultWaiting take head r) :
    (dropWaiting s).xu.cells[k] = .free := by
  rw [dropWaiting_eq]
  exact foldl_dropCell_cell allCells (mem_allCells k) waits

theorem faultSettled_reoffered (s : State) : Reoffered (dropWaiting s) (faultSettled s) := by
  rw [faultSettled, areaChanged]
  exact (cancelReading_reoffered (dropWaiting s)).trans (offerPending_reoffered _)

/-- Only entries become FREE. -/
theorem faultSettled_freed (ha : active s = false) : Freed s.xu (faultSettled s).xu :=
  (dropWaiting_freed s).trans ((faultSettled_reoffered s).inactive (dropWaiting_inactive ha))

theorem faultSettled_waiting (ha : active s = false) {take : Word} {head : Option OrderHead} {r : OrderResult}
    (h : s.xu.cells[k] = .resultWaiting take head r ∨ s.xu.cells[k] = .free) : (faultSettled s).xu.cells[k] = .free := by
  refine ((faultSettled_reoffered s).inactive (dropWaiting_inactive ha)).free ?_
  rcases h with waits | free
  · exact dropWaiting_cell waits
  · exact (dropWaiting_freed s).free free

theorem faultSettled_read (h : s.mould.read = .none) : (faultSettled s).mould.read = .none :=
  (faultSettled_reoffered s).read (by rw [dropWaiting_mould, h])

theorem faultSettled_left (h : s.mould.state = .mounting ∧ s.mould.phase = .reading) : MouldLeft (faultSettled s) := by
  have left := cancelReading_left (s := dropWaiting s) (by rw [dropWaiting_mould]; exact h)
  rw [faultSettled, areaChanged, offerPending_of_left left]
  exact left

/-- The state that BUS_ERROR leaves, but for what ended with the failing operation. -/
theorem Faulted.settles (h : Faulted code s v) :
    (faultSettled v).xu.area = .areaFault ∧ (faultSettled v).xu.attn = false ∧ (faultSettled v).xu.en = s.xu.en
      ∧ (faultSettled v).xu.checkCode = code
      ∧ (∀ (k : CellNo) (take : Word) (head : Option OrderHead) (r : OrderResult),
          s.xu.cells[k] = .resultWaiting take head r → (faultSettled v).xu.cells[k] = .free)
      ∧ (s.mould.state = .mounting → s.mould.phase = .reading → MouldLeft (faultSettled v)) := by
  have freed := faultSettled_freed h.inactive
  exact ⟨(freed.field (f := (·.area)) fun _ _ => rfl).trans h.area, (freed.field (f := (·.attn)) fun _ _ => rfl).trans h.attn,
    (freed.field (f := (·.en)) fun _ _ => rfl).trans h.en, (freed.field (f := (·.checkCode)) fun _ _ => rfl).trans h.code,
    fun k take head r e => faultSettled_waiting h.inactive (h.waits k take head r e),
    fun e e' => faultSettled_left (h.reading e e')⟩

/-! ### The failing operations -/

theorem endScan_faulted (code : Nat) (s : State) :
    Faulted code s (endScan (areaFaulted code s)) ∧ (endScan (areaFaulted code s)).xu.scan.phase = .idle
      ∧ (endScan (areaFaulted code s)).xu.scan.mark = none ∧ (endScan (areaFaulted code s)).xu.queue = s.xu.queue :=
  ⟨⟨rfl, rfl, rfl, rfl, fun _ _ _ _ h => .inl h, fun h h' => ⟨h, h'⟩⟩, rfl, rfl, rfl⟩

theorem settleEntry_freed (k : CellNo) (take : Word) (s : State) :
    Freed s.xu (settleEntry k take .free s).xu ∧ (settleEntry k take .free s).mould = s.mould := by
  unfold settleEntry
  split
  · split
    · exact ⟨putCell_free_freed k s, rfl⟩
    · exact ⟨.refl _, rfl⟩
  · exact ⟨.refl _, rfl⟩

/-- The failing job has left, and with it at most entries have become FREE. -/
theorem jobFailed_freed (ha : active s = false) (some : s.xu.queue ≠ []) :
    Freed (popJob s).xu (jobFailed s).xu
      ∧ (s.mould.state = .mounting → (jobFailed s).mould.state = .mounting ∧ (jobFailed s).mould.phase = s.mould.phase) := by
  obtain ⟨j, js, queue⟩ := List.exists_cons_of_ne_nil some
  rw [jobFailed, queue]
  dsimp only
  split
  next k take _ _ _ =>
    obtain ⟨freed, mould⟩ := settleEntry_freed k take (popJob s)
    exact ⟨freed, fun e => by rw [mould]; exact ⟨e, rfl⟩⟩
  next c _ =>
    have ended := saveEnded_reoffered c.savedBy false (popJob s)
    refine ⟨ended.inactive ha, fun e => ?_⟩
    have staying : ¬ (c.savedBy = .dismount ∧ (popJob s).mould.state = .dismounting) := fun h => absurd (e.symm.trans h.2) (by decide)
    rw [saveEnded_of_staying staying]
    exact ⟨e, rfl⟩
  · exact ⟨.refl _, fun e => ⟨e, rfl⟩⟩

theorem jobFailed_faulted (code : Nat) (s : State) :
    Faulted code s (jobFailed (areaFaulted code s)) ∧ (jobFailed (areaFaulted code s)).xu.queue = s.xu.queue.tail
      ∧ (s.xu.queue ≠ [] → (jobFailed (areaFaulted code s)).xu.issue = none) := by
  by_cases some : s.xu.queue = []
  · have same : jobFailed (areaFaulted code s) = areaFaulted code s := by
      rw [jobFailed, show (areaFaulted code s).xu.queue = [] from some]
    rw [same, some]
    exact ⟨areaFaulted_faulted code s, some, fun e => absurd rfl e⟩
  · obtain ⟨freed, reading⟩ := jobFailed_freed (s := areaFaulted code s) rfl some
    have popped : Faulted code s (popJob (areaFaulted code s)) := ⟨rfl, rfl, rfl, rfl, fun _ _ _ _ h => .inl h, fun h h' => ⟨h, h'⟩⟩
    exact ⟨popped.freed freed reading, freed.field (f := (·.queue)) fun _ _ => rfl, fun _ => freed.field (f := (·.issue)) fun _ _ => rfl⟩

theorem scanError_eq (phase : s.xu.scan.phase ≠ .idle) (area : s.xu.area = .active) :
    scanError s = faultSettled (endScan (areaFaulted (scanFaultCode s.xu.scan.phase) s)) := by
  rw [scanError, if_neg phase, areaFault_eq (faults_of_active area)]

theorem mountError_eq (read : s.mould.read ≠ .none) (area : s.xu.area = .active) :
    mountError s = faultSettled (areaFaulted 8 (s.onMould fun m => { m with read := .none })) := by
  rw [mountError, if_pos read]
  exact areaFault_eq (own := id) (s := s.onMould fun m => { m with read := .none }) (faults_of_active area)

theorem jobError_eq {n : Nat} (issue : s.xu.issue = some { accepted := n, onBus := true }) (area : s.xu.area = .active) :
    jobError s = faultSettled (jobFailed (areaFaulted 9 s)) := by
  rw [jobError, issue]
  exact (if_pos rfl).trans (areaFault_eq (faults_of_active area))

/-- The failing operation of the enable, with the enable's stray operation over. -/
def enableFaulted (code : Nat) (s : State) : State := (areaFaulted code s).onXu fun x => { x with strayEnable := .none }

theorem enableError_eq (h : s.xu.enabling = .headerRead ∨ ∃ w, s.xu.enabling = .capabilityWrite w) :
    enableError s = faultSettled (enableFaulted (if s.xu.enabling = .headerRead then 8 else 9) s) := by
  have going : s.xu.enabling ≠ .none := by rcases h with h | ⟨w, h⟩ <;> rw [h] <;> nofun
  rcases h with h | ⟨w, h⟩
  · rw [enableError, h, if_pos rfl]
    exact areaFault_eq (faults_of_enabling going)
  · rw [enableError, h, if_neg nofun]
    exact areaFault_eq (faults_of_enabling going)

theorem enableFaulted_faulted (code : Nat) (s : State) : Faulted code s (enableFaulted code s) :=
  ⟨rfl, rfl, rfl, rfl, fun _ _ _ _ h => .inl h, fun h h' => ⟨h, h'⟩⟩

theorem scanFaultCode_eq {p : ScanPhase} :
    ((∃ w, p = .echo w) ∨ (∃ k, p = .take k) → scanFaultCode p = 9)
      ∧ ((∀ w, p ≠ .echo w) → (∀ k, p ≠ .take k) → scanFaultCode p = 8) := by
  cases p with
  | echo w => exact ⟨fun _ => rfl, fun h => absurd rfl (h w)⟩
  | take k => exact ⟨fun _ => rfl, fun _ h => absurd rfl (h k)⟩
  | idle | header | programme | board | cellRead => exact ⟨(by rintro (⟨_, h⟩ | ⟨_, h⟩) <;> cases h), fun _ _ => rfl⟩

/-- Settles O54. -/
theorem busErrorFaultsArea : Obligations.BusErrorFaultsArea := by
  intro s hh
  have errs (unit : BusUnit) : exec (.busError unit) s = .next (busErrorOf unit s) := respond_always hh
  simp only [errs]
  refine ⟨fun unit area idle failing => ?_, fun failing => ?_, fun phase => ?_, fun issue => ?_, fun read stray => ?_⟩
  · have keeps := busErrorOf_keeps unit s
    rcases failing with ⟨rfl, phase⟩ | ⟨rfl, read⟩ | ⟨rfl, n, issue⟩
    · have eq : busErrorOf .scan s = _ := scanError_eq phase area
      obtain ⟨faulted, ended, unmarked, queue⟩ := endScan_faulted (scanFaultCode s.xu.scan.phase) s
      have freed := faultSettled_freed faulted.inactive
      obtain ⟨area, attn, en, code, waits, reading⟩ := faulted.settles
      rw [eq] at keeps ⊢
      refine ⟨_, rfl, area, attn, en, nofun, nofun, fun _ => ⟨?_, ?_, ?_, ?_, ?_⟩, waits, reading, keeps.timer rfl, keeps.corr rfl,
        keeps.tester rfl, keeps.lines, keeps.latch, keeps.outside⟩
      · exact (freed.field (f := (·.scan.phase)) fun _ _ => rfl).trans ended
      · exact (freed.field (f := (·.scan.mark)) fun _ _ => rfl).trans unmarked
      · exact (freed.field (f := (·.queue)) fun _ _ => rfl).trans queue
      · exact fun write => code.trans (scanFaultCode_eq.1 write)
      · exact fun echo take => code.trans (scanFaultCode_eq.2 echo take)
    · have eq : busErrorOf .mount s = _ := mountError_eq read area
      have faulted : Faulted 8 s (areaFaulted 8 (s.onMould fun m => { m with read := .none })) :=
        ⟨rfl, rfl, rfl, rfl, fun _ _ _ _ h => .inl h, fun h h' => ⟨h, h'⟩⟩
      have freed := faultSettled_freed faulted.inactive
      have read := faultSettled_read (s := areaFaulted 8 (s.onMould fun m => { m with read := .none })) rfl
      obtain ⟨area, attn, en, code, waits, reading⟩ := faulted.settles
      rw [eq] at keeps ⊢
      exact ⟨_, rfl, area, attn, en, nofun, fun _ => ⟨code, read, freed.field (f := (·.queue)) fun _ _ => rfl⟩, nofun, waits, reading,
        keeps.timer rfl, keeps.corr rfl, keeps.tester rfl, keeps.lines, keeps.latch, keeps.outside⟩
    · have eq : busErrorOf .job s = _ := jobError_eq issue area
      obtain ⟨faulted, queue, issued⟩ := jobFailed_faulted 9 s
      have freed := faultSettled_freed faulted.inactive
      obtain ⟨area, attn, en, code, waits, reading⟩ := faulted.settles
      rw [eq] at keeps ⊢
      exact ⟨_, rfl, area, attn, en, fun _ => ⟨code, (freed.field (f := (·.queue)) fun _ _ => rfl).trans queue,
        fun some => (freed.field (f := (·.issue)) fun _ _ => rfl).trans (issued some)⟩, nofun, nofun, waits, reading,
        keeps.timer rfl, keeps.corr rfl, keeps.tester rfl, keeps.lines, keeps.latch, keeps.outside⟩
  · have keeps := busErrorOf_keeps .enable s
    have eq : busErrorOf .enable s = _ := enableError_eq failing
    have faulted := enableFaulted_faulted (if s.xu.enabling = .headerRead then 8 else 9) s
    have freed := faultSettled_freed faulted.inactive
    obtain ⟨area, attn, -, code, -⟩ := faulted.settles
    rw [eq] at keeps ⊢
    exact ⟨_, rfl, area, freed.field (f := (·.enabling)) fun _ _ => rfl, freed.field (f := (·.strayEnable)) fun _ _ => rfl, code, attn,
      keeps.timer rfl, keeps.latch, keeps.outside⟩
  · exact congrArg _ (if_pos phase)
  · simp [busErrorOf, jobError, issue]
  · simp [busErrorOf, mountError, read, stray]

end Sys2Proof.Machine
end

section
/-! PROOF. How a job goes on and ends, and the waiting result that takes its place (R160, R162, R163, R165). -/

namespace Sys2Proof.Machine

open Sys2Proof

variable {s t u : State} {j k : CellNo} {take : Word} {head : Option OrderHead} {r : OrderResult}

/-! ## Waiting results placed (R163) -/

/-- One waiting result gets its job. -/
def placeCell (s : State) (k : CellNo) : State :=
  match s.xu.cells[k] with
  | .resultWaiting take head r =>
    if active s && queueRoom s then addJob (.result k take (notifyOf head) r) (s.putCell k (.inHand take head)) else s
  | _ => s

theorem placeWaiting_eq (s : State) : placeWaiting s = allCells.foldl placeCell s := rfl

theorem placeCell_of_room (waits : s.xu.cells[k] = .resultWaiting take head r) (ha : active s = true) (hq : queueRoom s = true) :
    placeCell s k = addJob (.result k take (notifyOf head) r) (s.putCell k (.inHand take head)) := by
  simp [placeCell, waits, ha, hq]

theorem placeCell_of_not_waiting (h : ∀ take head r, s.xu.cells[k] ≠ .resultWaiting take head r) : placeCell s k = s := by
  unfold placeCell
  split
  next take head r waits => exact absurd waits (h take head r)
  · rfl

theorem placeCell_requests (k : CellNo) (s : State) : Requests s (placeCell s k) := by
  unfold placeCell
  split
  · split
    · exact .trans (t := s.putCell k _) (.of_same rfl rfl) (addJob_requests _ _)
    · exact .refl s
  · exact .refl s

theorem placeCell_fresh (k : CellNo) (h : IssueFresh s) : IssueFresh (placeCell s k) := by
  unfold placeCell
  split
  · split
    · exact addJob_fresh (s := s.putCell k _) _ h
    · exact h
  · exact h

theorem placeCell_ne (ne : j ≠ k) (s : State) : (placeCell s k).xu.cells[j] = s.xu.cells[j] := by
  unfold placeCell
  split
  · split
    · exact putCell_cell_ne ne _ _
    · rfl
  · rfl

theorem foldl_placeCell_requests (ks : List CellNo) (s : State) : Requests s (ks.foldl placeCell s) :=
  .foldl _ (fun s k => placeCell_requests k s) _ _

theorem foldl_placeCell_fresh (ks : List CellNo) (h : IssueFresh s) : IssueFresh (ks.foldl placeCell s) := by
  induction ks generalizing s with
  | nil => exact h
  | cons k ks ih => exact ih (placeCell_fresh k h)

theorem foldl_placeCell_not_mem (ks : List CellNo) (absent : j ∉ ks) (s : State) : (ks.foldl placeCell s).xu.cells[j] = s.xu.cells[j] := by
  induction ks generalizing s with
  | nil => rfl
  | cons k ks ih =>
    refine (ih (fun mem => absent (List.mem_cons_of_mem _ mem)) _).trans (placeCell_ne (fun same : j = k => absent ?_) s)
    exact same ▸ List.mem_cons_self

theorem foldl_placeCell_of_none (ks : List CellNo) (h : ∀ k ∈ ks, ∀ take head r, s.xu.cells[k] ≠ .resultWaiting take head r) :
    ks.foldl placeCell s = s := by
  induction ks with
  | nil => rfl
  | cons k ks ih =>
    rw [List.foldl_cons, placeCell_of_not_waiting (h k List.mem_cons_self)]
    exact ih fun c mem => h c (List.mem_cons_of_mem _ mem)

/-- A cell whose result does not wait keeps its entry. -/
theorem foldl_placeCell_of_not_waiting (ks : List CellNo) (h : ∀ take head r, s.xu.cells[k] ≠ .resultWaiting take head r) :
    (ks.foldl placeCell s).xu.cells[k] = s.xu.cells[k] := by
  induction ks generalizing s with
  | nil => rfl
  | cons c ks ih =>
    have same : (placeCell s c).xu.cells[k] = s.xu.cells[k] := by
      by_cases e : k = c
      · subst e
        rw [placeCell_of_not_waiting h]
      · exact placeCell_ne e s
    exact (ih fun take head r => by rw [same]; exact h take head r).trans same

/-- The first waiting result, in cell order, gets the first job. -/
theorem placeWaiting_first (first : FirstWaiting s k take head r) (ha : active s = true) (hq : queueRoom s = true) :
    (s.xu.queue ++ [jobOf s 0 (.result k take (notifyOf head) r)]) <+: (placeWaiting s).xu.queue
      ∧ (placeWaiting s).xu.cells[k] = .inHand take head := by
  obtain ⟨waits, before⟩ := first
  have skips : (allCells.filter fun j => decide (j < k)).foldl placeCell s = s :=
    foldl_placeCell_of_none _ fun c mem => before c (of_decide_eq_true (List.mem_filter.1 mem).2)
  have placed : placeWaiting s =
      (cellsAfter k).foldl placeCell (addJob (.result k take (notifyOf head) r) (s.putCell k (.inHand take head))) := by
    rw [placeWaiting_eq, allCells_eq k, List.foldl_append, skips, List.foldl_cons, placeCell_of_room waits ha hq]
  rw [placed]
  have later := foldl_placeCell_requests (cellsAfter k) (addJob (.result k take (notifyOf head) r) (s.putCell k (.inHand take head)))
  exact ⟨later.1, (foldl_placeCell_not_mem _ (self_not_mem_cellsAfter k) _).trans (putCell_cell_self _ _ _)⟩

/-! ## The end of a job (R162) -/

/-- The job has left, its record is noted and the attention level judged; its room is still free. -/
def jobLeft (b : JobBody) (s : State) : State := attnAfterJob b (noteWritten b (popJob s))

/-- The mould manager has heard of the job's end. -/
def jobReported (b : JobBody) (s : State) : State := offerPending (reportSave b true (placeWaiting (jobLeft b s)))

theorem jobDone_eq (b : JobBody) (s : State) : jobDone b s = issueNext (jobReported b s) := rfl

theorem noteWritten_frame (b : JobBody) (s : State) :
    { noteWritten b s with xu := { (noteWritten b s).xu with lastNoticed := s.xu.lastNoticed } } = s := by
  unfold noteWritten
  split
  · split <;> rfl
  · split <;> rfl
  · rfl

theorem attnAfterJob_frame (b : JobBody) (s : State) :
    { attnAfterJob b s with xu := { (attnAfterJob b s).xu with attn := s.xu.attn } } = s := by
  unfold attnAfterJob
  split <;> rfl

theorem jobLeft_frame (b : JobBody) (s : State) :
    { jobLeft b s with xu := { (jobLeft b s).xu with lastNoticed := s.xu.lastNoticed, attn := s.xu.attn } } = popJob s := by
  have judged := attnAfterJob_frame b (noteWritten b (popJob s))
  have noted := noteWritten_frame b (popJob s)
  unfold jobLeft
  generalize attnAfterJob b (noteWritten b (popJob s)) = w at *
  generalize noteWritten b (popJob s) = v at *
  have attn : v.xu.attn = s.xu.attn := (congrArg (fun u : State => u.xu.attn) noted :)
  have both := (congrArg (fun u : State => { u with xu := { u.xu with lastNoticed := s.xu.lastNoticed } }) judged).trans noted
  rw [attn] at both
  exact both

theorem issueNext_cases (s : State) :
    (active s = true ∧ s.xu.issue = none ∧ s.xu.queue ≠ []
        ∧ issueNext s = s.onXu fun x => { x with issue := some { accepted := 0, onBus := true } })
      ∨ (¬ (active s = true ∧ s.xu.issue = none ∧ s.xu.queue ≠ []) ∧ issueNext s = s) := by
  unfold issueNext
  split
  next h =>
    simp only [Bool.and_eq_true, decide_eq_true_eq, Bool.not_eq_true', List.isEmpty_eq_false_iff] at h
    exact .inl ⟨h.1.1, h.1.2, h.2, rfl⟩
  next h =>
    simp only [Bool.and_eq_true, decide_eq_true_eq, Bool.not_eq_true', List.isEmpty_eq_false_iff, and_assoc] at h
    exact .inr ⟨h, rfl⟩

/-- The next issue changes neither the jobs nor the entries. -/
theorem issueNext_queue (s : State) : (issueNext s).xu.queue = s.xu.queue ∧ (issueNext s).xu.cells = s.xu.cells := by
  rcases issueNext_cases s with ⟨-, -, -, eq⟩ | ⟨-, eq⟩ <;> rw [eq] <;> exact ⟨rfl, rfl⟩

theorem issueNext_issue (fresh : IssueFresh s) (ha : active s = true) (some' : s.xu.queue ≠ []) :
    (issueNext s).xu.issue = some { accepted := 0, onBus := true } := by
  rcases issueNext_cases s with ⟨-, -, -, eq⟩ | ⟨going, eq⟩
  · rw [eq]
    rfl
  · rw [eq]
    exact fresh.resolve_left fun none => going ⟨ha, none, some'⟩

theorem jobLeft_queue {b : JobBody} {i : Job} {js : List Job} (queue : s.xu.queue = i :: js) : (jobLeft b s).xu.queue = js := by
  have same : (jobLeft b s).xu.queue = (popJob s).xu.queue := by rw [← jobLeft_frame b s]
  exact same.trans (congrArg List.tail queue)

theorem jobReported_reoffered (b : JobBody) (s : State) : Reoffered (placeWaiting (jobLeft b s)) (jobReported b s) :=
  (reportSave_reoffered b true _).trans (offerPending_reoffered _)

theorem reportSave_requests (b : JobBody) (written : Bool) (s : State) : Requests s (reportSave b written s) := by
  unfold reportSave
  split
  · unfold saveEnded
    split
    · exact completeDismount_requests _ s
    · exact .refl s
  · exact .refl s

theorem jobReported_requests (b : JobBody) (s : State) : Requests (placeWaiting (jobLeft b s)) (jobReported b s) :=
  (reportSave_requests b true _).trans (offerPending_requests _)

/-- The jobs behind one that leaves are still there, in front of new ones. -/
theorem jobDone_queue {i : Job} {js : List Job} (b : JobBody) (queue : s.xu.queue = i :: js) : ∃ added, (jobDone b s).xu.queue = js ++ added := by
  have requests := (foldl_placeCell_requests allCells (jobLeft b s)).trans (jobReported_requests b s)
  obtain ⟨added, eq⟩ := requests.1
  refine ⟨added, ?_⟩
  rw [jobDone_eq, (issueNext_queue _).1, ← eq, jobLeft_queue queue]

theorem jobLeft_fresh (b : JobBody) (s : State) : IssueFresh (jobLeft b s) := by
  refine .inl ?_
  have same : (jobLeft b s).xu.issue = (popJob s).xu.issue := by rw [← jobLeft_frame b s]
  exact same

theorem jobReported_active (b : JobBody) (s : State) : active (jobReported b s) = active s := by
  have left : active (jobLeft b s) = active s := by
    have area : (jobLeft b s).xu.area = (popJob s).xu.area := by rw [← jobLeft_frame b s]
    exact active_congr area
  exact (jobReported_reoffered b s).active.trans (((placeWaiting_keeps (p := exchangeOnly) _).active).trans left)

/-- The next job is issued. -/
theorem jobDone_issue {i : Job} {js : List Job} (b : JobBody) (queue : s.xu.queue = i :: js) (ha : active s = true) (rest : js ≠ []) :
    (jobDone b s).xu.issue = some { accepted := 0, onBus := true } := by
  have fresh : IssueFresh (jobReported b s) :=
    (jobReported_reoffered b s).fresh (foldl_placeCell_fresh allCells (jobLeft_fresh b s))
  obtain ⟨added, eq⟩ := jobDone_queue b queue
  rw [jobDone_eq, (issueNext_queue _).1] at eq
  rw [jobDone_eq]
  exact issueNext_issue fresh ((jobReported_active b s).trans ha) (by rw [eq]; exact List.append_ne_nil_of_left_ne_nil rest _)

/-- In the room that a job leaves, the first waiting result gets its own. -/
theorem jobDone_waitingPlaced {i : Job} {js : List Job} (b : JobBody) (queue : s.xu.queue = i :: js) : WaitingPlaced s js (jobDone b s) := by
  intro k take head r first ha room order
  have frame := jobLeft_frame b s
  have left := jobLeft_queue (b := b) queue
  have reoffered := jobReported_reoffered b s
  have requests := jobReported_requests b s
  have stood : (placeWaiting (jobLeft b s)).mould = (jobLeft b s).mould := (placeWaiting_keeps (p := exchangeOnly) _).mould rfl
  rw [jobDone_eq, (issueNext_queue _).1, (issueNext_queue _).2]
  generalize jobReported b s = q at *
  have placed := placeWaiting_first (s := jobLeft b s) (k := k) (take := take) (head := head) (r := r)
  generalize placeWaiting (jobLeft b s) = p at *
  generalize jobLeft b s = w at *
  have cells : w.xu.cells = s.xu.cells := (congrArg (fun u : State => u.xu.cells) frame :)
  have area : w.xu.area = s.xu.area := (congrArg (fun u : State => u.xu.area) frame :)
  have mould : w.mould = s.mould := (congrArg (fun u : State => u.mould) frame :)
  have free : w.freeNext = s.freeNext := (congrArg (fun u : State => u.freeNext) frame :)
  have base : baseOf w = baseOf s := (congrArg (fun u : State => baseOf u) frame :)
  have job : jobOf w 0 (.result k take (notifyOf head) r) = jobOf s 0 (.result k take (notifyOf head) r) := by
    rw [jobOf, jobOf, base, free]
  obtain ⟨jobs, entry⟩ := placed (by rw [FirstWaiting, cells]; exact first) ((active_congr area).trans ha)
    (queueRoom_iff.2 (by rw [left]; exact room))
  obtain ⟨-, kept⟩ := reoffered.ordered (by rw [stood, mould, order])
  obtain ⟨rest, eq⟩ := jobs.trans requests.1
  refine ⟨?_, by rw [kept, entry]⟩
  rw [← eq, left, job, List.getElem?_append_left (by simp), List.getElem?_concat_length]

/-! ## The writes and the compare-and-swap (R160, R165) -/

theorem writeOnBus_eq {i : Job} {js : List Job} {n : Nat} {w : BusWrite} (queue : s.xu.queue = i :: js)
    (issue : s.xu.issue = some { accepted := n, onBus := true }) (write : (jobWrites i)[n]? = some w) : writeOnBus s = some (i, w) := by
  simp [writeOnBus, queue, issue, write]

theorem writeAccepted_eq {i : Job} {js : List Job} {n : Nat} {w : BusWrite} (queue : s.xu.queue = i :: js)
    (issue : s.xu.issue = some { accepted := n, onBus := true }) (write : (jobWrites i)[n]? = some w) :
    writeAccepted s = if lastWrite i n = true then jobDone i.body (s.land w) else bumpIssue (s.land w) := by
  rw [writeAccepted, writeOnBus_eq queue issue write, acceptedCount, issue]

theorem lastWrite_iff {i : Job} {n : Nat} :
    lastWrite i n = true ↔ n + 1 = (jobWrites i).length ∧ ∀ c k m r, i.body ≠ .result c k m r := by
  unfold lastWrite
  split
  next c k m r body => exact ⟨nofun, fun h => absurd body (h.2 c k m r)⟩
  next other => simpa using fun _ => other

theorem bumpIssue_land {n : Nat} (w : BusWrite) (issue : s.xu.issue = some { accepted := n, onBus := true }) :
    (bumpIssue (s.land w)).xu.issue = some { accepted := n + 1, onBus := decide (s.xu.area ≠ .areaFault) } := by
  have bumped : (bumpIssue (s.land w)).xu.issue =
      s.xu.issue.map fun i => { accepted := i.accepted + 1, onBus := decide (s.xu.area ≠ .areaFault) } := rfl
  rw [bumped, issue]
  rfl

theorem bumpIssue_land_frame (w : BusWrite) (s : State) :
    { bumpIssue (s.land w) with area := s.area, xu := { (bumpIssue (s.land w)).xu with issue := s.xu.issue } } = s := by
  cases s
  rfl

theorem jobWrites_length_of_result {i : Job} {notify : Bool} (body : i.body = .result k take notify r) : (jobWrites i).length = 1 := by
  rw [jobWrites, body]
  rfl

/-- The state word lands where the cell was found TAKEN. -/
def stateWordPut (base : Addr) (k : CellNo) (r : OrderResult) (found : Word) (s : State) : State :=
  if found = wordTaken then putStateWord base k (resultWord r) s else s

theorem stateWordPut_frame (base : Addr) (k : CellNo) (r : OrderResult) (found : Word) (s : State) :
    { stateWordPut base k r found s with area := s.area } = s := by
  unfold stateWordPut
  split <;> rfl

/-- The state that the job of a result leaves from: its state word put, and its entry settled. -/
def resultPut (base : Addr) (k : CellNo) (notify : Bool) (r : OrderResult) (found : Word) (s : State) : State :=
  (stateWordPut base k r found s).putCell k (entryAfter (decide (found = wordTaken)) notify)

theorem resultPut_frame (base : Addr) (k : CellNo) (notify : Bool) (r : OrderResult) (found : Word) (s : State) :
    { resultPut base k notify r found s with
        area := s.area, xu := { (resultPut base k notify r found s).xu with cells := s.xu.cells } } = s := by
  have frame := stateWordPut_frame base k r found s
  unfold resultPut
  generalize stateWordPut base k r found s = v at *
  have cells : v.xu.cells = s.xu.cells := (congrArg (fun u : State => u.xu.cells) frame :)
  rw [← cells]
  exact frame

theorem entryAfter_settled (wrote notify : Bool) : entryAfter wrote notify = .answered ∨ entryAfter wrote notify = .free := by
  unfold entryAfter
  split
  · exact .inl rfl
  · exact .inr rfl

theorem settleEntry_of_inHand (e : CellEntry) (cell : s.xu.cells[k] = .inHand take head) : settleEntry k take e s = s.putCell k e := by
  rw [settleEntry, cell]
  exact if_pos rfl

theorem resultSettled_eq {i : Job} {js : List Job} {notify : Bool} {found : Word} (queue : s.xu.queue = i :: js)
    (issue : s.xu.issue = some { accepted := 1, onBus := true }) (body : i.body = .result k take notify r)
    (cell : s.xu.cells[k] = .inHand take head) :
    resultSettled found s =
      jobDone i.body (resultPut i.base k notify r found s) := by
  have cas : casOnBus s = some i := by simp [casOnBus, queue, issue, jobWrites_length_of_result body]
  have cell' : (stateWordPut i.base k r found s).xu.cells[k] = .inHand take head := by
    unfold stateWordPut
    split <;> exact cell
  rw [resultPut, ← settleEntry_of_inHand _ cell', resultSettled, cas]
  dsimp only
  rw [body]
  dsimp only
  rw [stateWordPut]
  simp only [decide_eq_true_eq]

/-- Another cell's entry that no longer waits does not change which result waits first. -/
theorem firstWaiting_putCell {c : CellNo} {e : CellEntry} {w : Word} {h : Option OrderHead} (cell : s.xu.cells[c] = .inHand w h)
    (ended : e = .answered ∨ e = .free) (first : FirstWaiting s k take head r) (same : t.xu.cells = (s.putCell c e).xu.cells) :
    FirstWaiting t k take head r := by
  obtain ⟨waits, before⟩ := first
  rw [FirstWaiting, same]
  have ne : k ≠ c := fun eq => by
    subst eq
    exact absurd (waits.symm.trans cell) nofun
  refine ⟨(putCell_cell_ne ne _ _).trans waits, fun j lt w h q => ?_⟩
  by_cases eq : j = c
  · subst eq
    rw [putCell_cell_self]
    rcases ended with rfl | rfl <;> nofun
  · rw [putCell_cell_ne eq]
    exact before j lt w h q

/-- An answered or freed entry stands to the end of its job. -/
theorem jobDone_cell (b : JobBody) (settled : s.xu.cells[k] = .answered ∨ s.xu.cells[k] = .free) :
    (jobDone b s).xu.cells[k] = s.xu.cells[k] := by
  have left : (jobLeft b s).xu.cells = s.xu.cells := by
    have frame := jobLeft_frame b s
    exact (congrArg (fun u : State => u.xu.cells) frame :)
  have unwaiting : ∀ take head r, (jobLeft b s).xu.cells[k] ≠ .resultWaiting take head r := fun take head r => by
    rw [left]
    rcases settled with h | h <;> rw [h] <;> nofun
  have placed : (placeWaiting (jobLeft b s)).xu.cells[k] = s.xu.cells[k] := by
    rw [placeWaiting_eq, foldl_placeCell_of_not_waiting allCells unwaiting, left]
  rw [jobDone_eq, (issueNext_queue _).2, (jobReported_reoffered b s).settled k fun take head => ?_, placed]
  rw [placed]
  rcases settled with h | h <;> rw [h] <;> nofun

theorem resultWord_eq (r : OrderResult) : resultWord r = if 0x80 < r.code then wordRefused else wordDone := by
  simp only [resultWord, OrderResult.refusal, decide_eq_true_eq]

/-- Settles O53. -/
theorem jobsGoOn : Obligations.JobsGoOn := by
  intro i js n s hh queue issue
  refine ⟨fun w write len => ?_, fun k take notify r head found body one cell => ?_⟩
  · have accepts : exec .jobWriteAccepted s = .next (writeAccepted s) := respond_always hh
    have eq := writeAccepted_eq queue issue write
    obtain ⟨inside, outside⟩ := land_lands w s len
    by_cases last : lastWrite i n = true
    · obtain ⟨final, other⟩ := lastWrite_iff.1 last
      rw [if_pos last] at eq
      have keeps := jobDone_keeps i.body (s.land w)
      refine ⟨_, accepts.trans (congrArg _ eq), ?_, fun more => ?_, fun _ _ => ⟨jobDone_queue i.body (s := s.land w) queue, fun ha rest => ?_, ?_⟩,
        keeps.timer rfl, keeps.corr rfl, keeps.tester rfl, keeps.lines, keeps.latch, keeps.board, keeps.variant, keeps.pending⟩
      · rw [Lands, keeps.area]
        exact ⟨inside, outside⟩
      · rcases more with more | ⟨c, k, m, r, body⟩
        · omega
        · exact absurd body (other c k m r)
      · exact jobDone_issue i.body (s := s.land w) queue ha rest
      · exact jobDone_waitingPlaced i.body (s := s.land w) queue
    · rw [if_neg last] at eq
      refine ⟨_, accepts.trans (congrArg _ eq), ⟨inside, outside⟩, fun _ => ⟨rfl, bumpIssue_land w issue, bumpIssue_land_frame w s⟩,
        fun final other => absurd (lastWrite_iff.2 ⟨final, other⟩) last, rfl, rfl, rfl, rfl, rfl, rfl, rfl, rfl⟩
  · subst one
    have settles : exec (.resultStateCasDone found) s = .next (resultSettled found s) := respond_always hh
    have eq := resultSettled_eq (found := found) queue issue body cell
    have keeps := jobDone_keeps i.body (resultPut i.base k notify r found s)
    have frame := resultPut_frame i.base k notify r found s
    have entry : (resultPut i.base k notify r found s).xu.cells[k] = entryAfter (decide (found = wordTaken)) notify := putCell_cell_self _ _ _
    have settled := entryAfter_settled (decide (found = wordTaken)) notify
    have cells : (resultPut i.base k notify r found s).xu.cells = (s.putCell k (entryAfter (decide (found = wordTaken)) notify)).xu.cells := by
      rw [resultPut, stateWordPut]
      split <;> rfl
    have area : (resultPut i.base k notify r found s).area = (stateWordPut i.base k r found s).area := rfl
    have cell' := jobDone_cell (k := k) (s := resultPut i.base k notify r found s) i.body (by rw [entry]; exact settled)
    generalize resultPut i.base k notify r found s = v at *
    have xu {α : Type} (f : State → α) : f { v with area := s.area, xu := { v.xu with cells := s.xu.cells } } = f s := congrArg f frame
    have queue' : v.xu.queue = i :: js := (xu (·.xu.queue)).trans queue
    refine ⟨_, settles.trans (congrArg _ eq), jobDone_queue i.body queue', fun taken => ⟨?_, ?_⟩, fun other => ⟨?_, ?_⟩, ?_,
      (keeps.timer rfl).trans (xu (·.timer)), (keeps.corr rfl).trans (xu (·.corr)), (keeps.tester rfl).trans (xu (·.tester)),
      keeps.lines.trans (xu (·.lines)), keeps.latch.trans (xu (·.evid.stopLatch)), keeps.board.trans (xu (·.board)),
      keeps.variant.trans (xu (·.variant)), keeps.pending.trans (xu (·.pending))⟩
    · rw [cell', entry, entryAfter, decide_eq_true taken]
      rfl
    · rw [Lands, keeps.area, area, stateWordPut, if_pos taken, ← resultWord_eq]
      exact land_lands ⟨addrAt i.base (0x100 + 64 * k.val), bytesWord (resultWord r)⟩ s (Nat.le_of_lt (by decide : 4 < 2 ^ 64))
    · rw [cell', entry, entryAfter, decide_eq_false other]
      rfl
    · rw [keeps.area, area, stateWordPut, if_neg other]
    · intro c take' head' q first ha room order
      have placed := jobDone_waitingPlaced i.body queue' c take' head' q
        (firstWaiting_putCell cell settled first cells) ((active_congr (xu (·.xu.area))).trans ha) room ((xu (·.mould.order)).trans order)
      have job : jobOf v 0 (.result c take' (notifyOf head') q) = jobOf s 0 (.result c take' (notifyOf head') q) :=
        xu fun u => jobOf u 0 (.result c take' (notifyOf head') q)
      rwa [job] at placed

end Sys2Proof.Machine
end

section
/-! PROOF. The coupling tester's attempts: joining the queue, the pulse and its routes, the attempt's end and the rest (R132 to R140,
R146). -/

namespace Sys2Proof.Machine

open Sys2Proof

variable {s t u : State} {c d : ChannelNo} {x : Test} {xs : List Test} {ps : List Partner}

/-! ## Path windows stand through a pulse -/

theorem pathsOf_corrHitEnd (c : ChannelNo) (e : HitEnd) (s : State) : pathsOf (corrHitEnd c e s) = pathsOf s := by
  have noted : pathsOf (noteCorrEnd c e s) = pathsOf s := by
    unfold noteCorrEnd
    split <;> rfl
  have closed (n : Nat) (s : State) : pathsOf (closeIfEnded n s) = pathsOf s := by
    unfold closeIfEnded
    split
    · rfl
    · split
      · exact pathsOf_closeEvent _ _ _
      · rfl
  unfold corrHitEnd
  split
  · exact (closed _ _).trans noted
  · exact noted

theorem pathsOf_pulseSource (c : ChannelNo) (level : Nat) (s : State) : pathsOf (pulseSource c level s) = pathsOf s := by
  unfold pulseSource
  dsimp only
  rw [pathsOf_congr ((mouldFollow_keeps c _).evid rfl)]
  split
  · rfl
  next h _ =>
    have delivered : pathsOf (deliverOutsideAttempt c h (s.onChannel c Channel.idled)) = pathsOf s := by
      unfold deliverOutsideAttempt
      split
      · exact pathsOf_corrHitEnd _ _ _
      · rfl
    exact delivered

theorem partnerWindow_congr (h : pathsOf t = pathsOf s) (p : Partner) : partnerWindow t p = partnerWindow s p := by
  rw [partnerWindow, partnerWindow, h]

/-! ## Routes (R137) -/

/-- One partner's route is set. -/
theorem setRoutes_ne (w : Word) (ps : List Partner) (absent : c ∉ ps.map (·.chan)) (s : State) :
    (setRoutes w ps s).channel c = s.channel c := by
  induction ps generalizing s with
  | nil => rfl
  | cons p ps ih =>
    rw [setRoutes_cons, ih fun mem => absent (List.mem_cons_of_mem _ mem)]
    split
    · exact State.channel_onChannel_ne s (fun same : c = p.chan => absent (same ▸ List.mem_cons_self)) _
    · rfl

/-- Setting routes changes nothing else in a channel. -/
theorem setRoutes_channel (w : Word) (ps : List Partner) (s : State) (c : ChannelNo) :
    ∃ route, (setRoutes w ps s).channel c = { s.channel c with route := route } := by
  induction ps generalizing s with
  | nil => exact ⟨_, rfl⟩
  | cons p ps ih =>
    rw [setRoutes_cons]
    obtain ⟨route, eq⟩ := ih (if p.routed then
      s.onChannel p.chan fun ch => { ch with route := .tester w (w + BitVec.ofNat 32 (partnerWindow s p)) } else s)
    refine ⟨route, eq.trans ?_⟩
    split
    · by_cases same : c = p.chan
      · subst same
        rw [State.channel_onChannel_self]
      · rw [State.channel_onChannel_ne s same]
    · rfl

theorem setRoutes_route (w : Word) (ps : List Partner) (s : State) (nodup : (ps.map (·.chan)).Nodup) :
    ∀ p ∈ ps, p.routed = true → ((setRoutes w ps s).channel p.chan).route = .tester w (w + BitVec.ofNat 32 (partnerWindow s p)) := by
  induction ps generalizing s with
  | nil => exact fun _ mem => absurd mem List.not_mem_nil
  | cons q ps ih =>
    intro p mem routed
    rw [List.map_cons, List.nodup_cons] at nodup
    rw [setRoutes_cons]
    rcases List.mem_cons.1 mem with rfl | mem
    · rw [setRoutes_ne w ps nodup.1, if_pos routed, State.channel_onChannel_self]
    · rw [ih _ nodup.2 p mem routed]
      split
      · rfl
      · rfl

/-- The longest listening span is one of the routed partners', and none exceeds it. -/
theorem longestSpan_bounds (s : State) (ps : List Partner) (some : ∃ p ∈ ps, p.routed = true) :
    (∀ p ∈ ps, p.routed = true → partnerWindow s p ≤ longestSpan s ps)
      ∧ ∃ p ∈ ps, p.routed = true ∧ partnerWindow s p = longestSpan s ps := by
  have fold (ps : List Partner) (m : Nat) :
      m ≤ ps.foldl (fun m p => if p.routed then max m (partnerWindow s p) else m) m
        ∧ (∀ p ∈ ps, p.routed = true → partnerWindow s p ≤ ps.foldl (fun m p => if p.routed then max m (partnerWindow s p) else m) m)
        ∧ (ps.foldl (fun m p => if p.routed then max m (partnerWindow s p) else m) m = m
            ∨ ∃ p ∈ ps, p.routed = true ∧ partnerWindow s p = ps.foldl (fun m p => if p.routed then max m (partnerWindow s p) else m) m) := by
    induction ps generalizing m with
    | nil => exact ⟨Nat.le_refl _, fun _ mem => absurd mem List.not_mem_nil, .inl rfl⟩
    | cons q ps ih =>
      rw [List.foldl_cons]
      obtain ⟨above, each, attained⟩ := ih (if q.routed then max m (partnerWindow s q) else m)
      by_cases routed : q.routed = true
      · simp only [routed, if_true] at above each attained ⊢
        refine ⟨by omega, fun p mem h => ?_, ?_⟩
        · rcases List.mem_cons.1 mem with rfl | mem
          · omega
          · exact each p mem h
        · rcases attained with stays | ⟨p, mem, h, eq⟩
          · rcases Nat.le_total (partnerWindow s q) m with le | le
            · exact .inl (stays.trans (Nat.max_eq_left le))
            · exact .inr ⟨q, List.mem_cons_self, routed, (stays.trans (Nat.max_eq_right le)).symm⟩
          · exact .inr ⟨p, List.mem_cons_of_mem _ mem, h, eq⟩
      · simp only [routed, if_false, Bool.false_eq_true] at above each attained ⊢
        refine ⟨above, fun p mem h => ?_, ?_⟩
        · rcases List.mem_cons.1 mem with rfl | mem
          · exact absurd h routed
          · exact each p mem h
        · exact attained.imp id fun ⟨p, mem, h⟩ => ⟨p, List.mem_cons_of_mem _ mem, h⟩
  obtain ⟨-, each, attained⟩ := fold ps 0
  refine ⟨each, attained.elim (fun zero => ?_) id⟩
  obtain ⟨p, mem, routed⟩ := some
  exact ⟨p, mem, routed, Nat.le_antisymm (each p mem routed) (by rw [longestSpan, zero]; exact Nat.zero_le _)⟩

/-! ## The pulse (R135 to R137) -/

/-- The attempt of a pulse. -/
def attemptOf (x : Test) (s : State) : Attempt :=
  { pulseTick := s.timer.clock, endTick := s.timer.clock + BitVec.ofNat 32 (longestSpan s x.partners) }

theorem pathsOf_setRoutes (w : Word) (ps : List Partner) (s : State) : pathsOf (setRoutes w ps s) = pathsOf s :=
  pathsOf_congr ((setRoutes_keeps w ps s).evid rfl)

theorem longestSpan_congr (h : pathsOf t = pathsOf s) (ps : List Partner) : longestSpan t ps = longestSpan s ps := by
  simp only [longestSpan, partnerWindow_congr h]

theorem driveAttempt_tester {x₀ : Test} (x : Test) (head : s.tester = x₀ :: xs) :
    (driveAttempt x s).tester = { x with state := .listening, attempt := some (attemptOf x s) } :: xs := by
  have queue : (setRoutes s.timer.clock x.partners (pulseSource x.source x.level s)).tester = x₀ :: xs := by
    rw [(setRoutes_keeps _ _ _).tester rfl, pulseSource_tester, head]
  have span := longestSpan_congr ((pathsOf_setRoutes s.timer.clock x.partners _).trans (pathsOf_pulseSource x.source x.level s)) x.partners
  rw [driveAttempt_eq, span]
  generalize setRoutes s.timer.clock x.partners (pulseSource x.source x.level s) = v at *
  rw [State.onTest, queue]
  rfl

theorem driveAttempt_channel (x : Test) (s : State) (c : ChannelNo) :
    (driveAttempt x s).channel c = (setRoutes s.timer.clock x.partners (pulseSource x.source x.level s)).channel c := by
  rw [driveAttempt_eq, State.channel, State.onTest_front]
  rfl

/-- The source pulses; only its route may still be set. -/
theorem driveAttempt_source (x : Test) (s : State) :
    ((driveAttempt x s).channel x.source).state = .pulsing
      ∧ ((driveAttempt x s).channel x.source).drive = some { level := x.level, left := 10 }
      ∧ ((driveAttempt x s).channel x.source).detector = .idle ∧ ((driveAttempt x s).channel x.source).hit = none := by
  obtain ⟨route, eq⟩ := setRoutes_channel s.timer.clock x.partners (pulseSource x.source x.level s) x.source
  rw [driveAttempt_channel, eq, pulseSource_self]
  exact ⟨rfl, rfl, rfl, rfl⟩

/-- Each routed partner listens for its path window, and the attempt for the longest. -/
theorem driveAttempt_routed (x : Test) (nodup : (x.partners.map (·.chan)).Nodup) (some : ∃ p ∈ x.partners, p.routed = true) :
    AttemptRouted s (driveAttempt x s) (attemptOf x s) x.partners := by
  obtain ⟨each, attained⟩ := longestSpan_bounds s x.partners some
  refine ⟨rfl, fun p mem routed => ?_, _, rfl, each, attained⟩
  rw [driveAttempt_channel, setRoutes_route _ _ _ nodup p mem routed, partnerWindow_congr (pathsOf_pulseSource _ _ _)]

theorem attemptRouted_congr {s' t' : State} {a : Attempt} (timer : s'.timer = s.timer) (paths : pathsOf s' = pathsOf s)
    (front : t'.front = t.front) (h : AttemptRouted s' t a ps) : AttemptRouted s t' a ps := by
  obtain ⟨pulse, routes, w, ends, bound, attained⟩ := h
  simp only [timer, partnerWindow_congr paths] at pulse routes ends bound attained
  refine ⟨pulse, fun p mem routed => ?_, w, ends, bound, attained⟩
  rw [State.channel, front]
  exact routes p mem routed

/-- The test whose partners are routed for its next attempt. -/
def routedTest (x : Test) (s : State) : Test := { x with partners := x.partners.map (routePartner s (decide (x.used = 0))) }

/-- A WAITING head that may start, with a partner to be routed, is pulsed. -/
theorem judgeQueue_drives (head : s.tester = x :: xs) (waits : x.state = .waiting) (source : live s x.source = true)
    (start : startable s x = true) (routed : ∃ p ∈ (routedTest x s).partners, p.routed = true) :
    judgeQueue s = driveAttempt (routedTest x s) s := by
  have fed : (s.channel x.source).state ≠ .fault := by
    rw [show (s.channel x.source).state = .live from of_decide_eq_true source]
    nofun
  have routed' : ((x.partners.map (routePartner s (decide (x.used = 0)))).any (·.routed)) = true := List.any_eq_true.2 routed
  rw [judgeQueue, head, List.length_cons, judgeHead, head]
  dsimp only
  rw [if_neg (not_not_intro waits), if_neg fed, if_pos start, if_pos routed']
  rfl

/-- A WAITING head that may not start waits. -/
theorem judgeQueue_waits (head : s.tester = x :: xs) (waits : x.state = .waiting) (source : (s.channel x.source).state ≠ .fault)
    (start : startable s x = false) : judgeQueue s = s := by
  rw [judgeQueue, head, List.length_cons, judgeHead, head]
  dsimp only
  rw [if_neg (not_not_intro waits), if_neg source, if_neg (by simp [start])]

theorem startable_iff : startable s x = true ↔ s.timer.press = .stopped ∧ watching s = true ∧ live s x.source = true := by
  simp [startable, and_assoc]

theorem live_iff : live s c = true ↔ (s.channel c).state = .live := decide_eq_true_iff

/-- Routing keeps the partner's channel and path. -/
theorem routePartner_same (s : State) (first : Bool) (p : Partner) :
    (routePartner s first p).chan = p.chan ∧ (routePartner s first p).path = p.path := by
  unfold routePartner
  cases first <;> exact ⟨rfl, rfl⟩

theorem routePartner_first (s : State) (p : Partner) : (routePartner s true p).routed = live s p.chan := rfl

theorem routePartner_later (s : State) (p : Partner) :
    (routePartner s false p).routed = (decide (p.outcome ≠ some .skipped) && live s p.chan) := rfl

theorem routedTest_chans (x : Test) (s : State) : (routedTest x s).partners.map (·.chan) = x.partners.map (·.chan) := by
  rw [routedTest, List.map_map]
  exact List.map_congr_left fun p _ => (routePartner_same s _ p).1

/-! ## The rest (R139) -/

theorem exec_restExpiry (hh : held s = false) (head : s.tester = x :: xs) (rests : x.state = .resting) (rest : x.rest = some 0) :
    exec .restExpiry s = .next (takeRest s) :=
  respond_of_due hh (restDue_iff.2 ⟨x, by rw [head]; rfl, rests, rest⟩)

/-- The head is WAITING again. -/
def restOver (x : Test) (xs : List Test) (s : State) : State := { s with tester := { x with state := .waiting, rest := none } :: xs }

theorem takeRest_eq (head : s.tester = x :: xs) : takeRest s = judgeQueue (restOver x xs s) := by
  rw [takeRest, State.onTest, head]
  rfl

/-- Settles O44. -/
theorem restEnds : Obligations.RestEnds := by
  intro x xs s hh head rests rest
  rw [exec_restExpiry hh head rests rest, takeRest_eq head]
  refine ⟨fun running fed => ?_, fun stopped watched source used some => ?_⟩
  · have start : startable (restOver x xs s) { x with state := .waiting, rest := none } = false := by
      simp [startable, restOver, running]
    rw [judgeQueue_waits (s := restOver x xs s) rfl rfl fed start]
    rfl
  · have start : startable (restOver x xs s) { x with state := .waiting, rest := none } = true :=
      startable_iff.2 ⟨stopped, watched, live_iff.2 source⟩
    have later : decide (x.used = 0) = false := decide_eq_false (by omega)
    have routed : ∃ p ∈ (routedTest { x with state := .waiting, rest := none } (restOver x xs s)).partners, p.routed = true := by
      obtain ⟨p, mem, unskipped, listens⟩ := some
      refine ⟨_, List.mem_map.2 ⟨p, mem, rfl⟩, ?_⟩
      dsimp only
      rw [later, routePartner_later]
      exact Bool.and_eq_true_iff.2 ⟨decide_eq_true unskipped, live_iff.2 listens⟩
    have drives := judgeQueue_drives (s := restOver x xs s) rfl rfl (live_iff.2 source) start routed
    have keeps := driveAttempt_keeps (routedTest { x with state := .waiting, rest := none } (restOver x xs s)) (restOver x xs s)
    have queue := driveAttempt_tester (s := restOver x xs s) (routedTest { x with state := .waiting, rest := none } (restOver x xs s)) rfl
    obtain ⟨pulses, driven, -, -⟩ := driveAttempt_source (routedTest { x with state := .waiting, rest := none } (restOver x xs s)) (restOver x xs s)
    have listens (nodup : (x.partners.map (·.chan)).Nodup) := driveAttempt_routed (s := restOver x xs s)
      (routedTest { x with state := .waiting, rest := none } (restOver x xs s)) (by rw [routedTest_chans]; exact nodup) routed
    rw [drives]
    refine ⟨_, _, _, rfl, queue, rfl, rfl, listens, ?_, rfl, rfl, rfl, rfl, pulses, driven, keeps.timer rfl, keeps.lines, keeps.latch,
      keeps.outside⟩
    rw [routedTest, List.map_map]
    refine List.map_congr_left fun p _ => ?_
    dsimp only [Function.comp]
    rw [later, (routePartner_same _ _ p).1, (routePartner_same _ _ p).2, routePartner_later]
    rfl

/-! ## Joining the queue (R132 to R135) -/

/-- A channel is a partner once (R133). -/
theorem walkPartners_nodup (source : ChannelNo) (paths : List PathEntry) (i : Nat) (found : List Partner)
    (nodup : (found.map (·.chan)).Nodup) : ((walkPartners source paths i found).map (·.chan)).Nodup := by
  induction paths generalizing i found with
  | nil => exact nodup
  | cons p paths ih =>
    unfold walkPartners
    split
    next joins =>
      refine ih _ _ ?_
      have new : ∀ q ∈ found, q.chan ≠ farEnd p source := fun q mem eq => by
        simp only [Bool.and_eq_true, Bool.not_eq_true', List.any_eq_false, decide_eq_true_eq] at joins
        exact joins.2 q mem eq
      rw [List.map_append, List.nodup_append]
      refine ⟨nodup, by simp, fun a mem b last => ?_⟩
      obtain ⟨q, among, rfl⟩ := List.mem_map.1 mem
      rw [List.mem_singleton.1 last]
      exact new q among
    · exact ih _ _ nodup

theorem partnersOf_nodup (paths : List PathEntry) (source : ChannelNo) : ((partnersOf paths source).map (·.chan)).Nodup :=
  walkPartners_nodup source paths 0 [] List.nodup_nil

/-- No line of Table 40 holds. -/
theorem testRefusal_of_allowed {a : TestArgs} (source : a.source = c.val) (watched : watching s = true) (used : c ∈ s.mould.used)
    (amplitude : a.amplitude ≤ 100) (level : a.level ≤ 7) (least : 1 ≤ a.attempts) (most : a.attempts ≤ 15) (delay : a.delay ≤ 255)
    (joined : ∃ p ∈ pathsOf s, p.endA = c ∨ p.endB = c) (room : s.tester.length < 8) : testRefusal a s = none := by
  have channel : (s.mould.used.any fun d => decide (d.val = a.source)) = true := List.any_eq_true.2 ⟨c, used, by simp [source]⟩
  have partner : ((pathsOf s).any fun p => p.touches (channelOf a.source)) = true := by
    obtain ⟨p, mem, ends⟩ := joined
    refine List.any_eq_true.2 ⟨p, mem, ?_⟩
    rw [source, channelOf_fin]
    exact touches_iff.2 ends
  have capacity : ¬ testCapacity ≤ s.tester.length := Nat.not_le.2 room
  unfold testRefusal
  rw [if_neg (by simp [watched]), if_neg (by simp [channel]), if_neg (by omega), if_neg (by omega), if_neg (by omega), if_neg (by omega),
    if_neg (by simp [partner]), if_neg capacity]

/-- The state with one test more. -/
def withTest (x : Test) (s : State) : State := { s with tester := s.tester ++ [x] }

theorem joinQueue_of_some (x : Test) (h : s.tester ≠ []) : joinQueue x s = withTest x s := by
  rw [joinQueue, if_neg (by simpa using h)]
  rfl

theorem joinQueue_of_none (x : Test) (h : s.tester = []) : joinQueue x s = judgeQueue (withTest x s) := by
  rw [joinQueue, if_pos (by simp [h])]
  rfl

theorem takeTest_of_allowed {a : TestArgs} {o : OrderRef} (fitted : s.variant = .omplar1640) (allowed : testRefusal a s = none) :
    takeTest a o s = joinQueue (newTest o a s) s := by
  simp [takeTest, fitted, allowed, pulserFitted]

/-- Settles O42. -/
theorem testJoinsQueue : Obligations.TestJoinsQueue := by
  intro k notify apply tag c amplitude level attempts delay x s read fitted watched used loud strong least most late joined room new
  have allowed : testRefusal ⟨c.val, amplitude, level, attempts, delay, apply⟩ (putInHand k ⟨3, notify, tag⟩ s) = none :=
    testRefusal_of_allowed (s := putInHand k ⟨3, notify, tag⟩ s) rfl watched used loud strong least most late joined room
  have record : newTest (orderOf s k tag) ⟨c.val, amplitude, level, attempts, delay, apply⟩ (putInHand k ⟨3, notify, tag⟩ s) = x := by
    rw [new, newTest, channelOf_fin]
    rfl
  have takes := takeTest_of_allowed (o := orderOf s k tag) (s := putInHand k ⟨3, notify, tag⟩ s) fitted allowed
  rw [record] at takes
  have treated := runOrder_treated (head := ⟨3, notify, tag⟩)
    (owner := takeTest ⟨c.val, amplitude, level, attempts, delay, apply⟩) read
  rw [takes] at treated
  refine ⟨fun waits fed => ?_, fun empty stopped source partner => ?_⟩
  · have joins : joinQueue x (putInHand k ⟨3, notify, tag⟩ s) = withTest x (putInHand k ⟨3, notify, tag⟩ s) := by
      by_cases empty : s.tester = []
      · have running : s.timer.press = .running := waits.resolve_left fun e => e empty
        have head : (withTest x (putInHand k ⟨3, notify, tag⟩ s)).tester = [x] := by
          rw [withTest, show (putInHand k ⟨3, notify, tag⟩ s).tester = [] from empty]
          rfl
        have start : startable (withTest x (putInHand k ⟨3, notify, tag⟩ s)) x = false := by
          simp [startable, withTest, putInHand, running]
        rw [joinQueue_of_none (s := putInHand k ⟨3, notify, tag⟩ s) x empty]
        refine judgeQueue_waits head (by rw [new]) ?_ start
        rw [new]
        exact fed.resolve_right fun e => e empty
      · exact joinQueue_of_some (s := putInHand k ⟨3, notify, tag⟩ s) x empty
    rw [joins] at treated
    refine ⟨_, respond_always read.1, treated.tester, treated.cell (putInHand_cell k _ s) nofun, treated.queue, ?_⟩
    exact congrArg (fun u : State => { u with xu := s.xu, tester := s.tester }) treated.outsideUnit
  · have head : (withTest x (putInHand k ⟨3, notify, tag⟩ s)).tester = [x] := by
      rw [withTest, show (putInHand k ⟨3, notify, tag⟩ s).tester = [] from empty]
      rfl
    rw [joinQueue_of_none (s := putInHand k ⟨3, notify, tag⟩ s) x empty] at treated
    generalize source' : withTest x (putInHand k ⟨3, notify, tag⟩ s) = v at *
    have front : v.front = s.front := by rw [← source']; rfl
    have paths : pathsOf v = pathsOf s := by rw [← source']; rfl
    have timer : v.timer = s.timer := by rw [← source']; rfl
    have mould : v.mould = s.mould := by rw [← source']; rfl
    have lines : v.lines = s.lines := by rw [← source']; rfl
    have latch : v.evid.stopLatch = s.evid.stopLatch := by rw [← source']; rfl
    have outside : OutsideKept s v := by rw [← source']; exact ⟨rfl, rfl, rfl, rfl⟩
    have pulses : live v x.source = true := by
      rw [live_congr front, new]
      exact live_iff.2 source
    have start : startable v x = true :=
      startable_iff.2 ⟨by rw [timer, stopped], (watching_congr mould).trans watched, pulses⟩
    have first : decide (x.used = 0) = true := by rw [new]; rfl
    have routed : ∃ p ∈ (routedTest x v).partners, p.routed = true := by
      obtain ⟨p, mem, listens⟩ := partner
      refine ⟨_, List.mem_map.2 ⟨p, mem, rfl⟩, ?_⟩
      rw [first, routePartner_first, live_congr front]
      exact live_iff.2 listens
    have nodup : ((routedTest x v).partners.map (·.chan)).Nodup := by
      rw [routedTest_chans, new]
      exact partnersOf_nodup _ _
    have queue := driveAttempt_tester (routedTest x v) head
    have routes := driveAttempt_routed (s := v) (routedTest x v) nodup routed
    have pulse := driveAttempt_source (routedTest x v) v
    rw [judgeQueue_drives head (by rw [new]) pulses start routed] at treated
    have marks : (routedTest x v).partners.map (fun p => (p.chan, p.path, p.routed)) =
        x.partners.map (fun p => (p.chan, p.path, live s p.chan)) := by
      rw [routedTest, List.map_map]
      refine List.map_congr_left fun p _ => ?_
      dsimp only [Function.comp]
      rw [first, (routePartner_same _ _ p).1, (routePartner_same _ _ p).2, routePartner_first, live_congr front]
    have keeps := driveAttempt_keeps (routedTest x v) v
    obtain ⟨pulsing, driven, idle, quiet⟩ := pulse
    have rest := treated.outsideUnit
    have records : (routedTest x v).order = x.order ∧ (routedTest x v).source = c ∧ (routedTest x v).level = level
        ∧ (routedTest x v).used = 0 := by
      rw [new]
      exact ⟨rfl, rfl, rfl, rfl⟩
    obtain ⟨order, source'', level', used'⟩ := records
    rw [source''] at pulsing driven idle quiet
    rw [level'] at driven
    generalize driveAttempt (routedTest x v) v = u at *
    generalize taken : runOrder ⟨3, notify, tag⟩ (takeTest ⟨c.val, amplitude, level, attempts, delay, apply⟩) s = t at *
    have channel : t.channel c = u.channel c := by rw [State.channel, State.channel, treated.front]
    have field {α : Type} (f : State → α) : f { t with xu := u.xu } = f u := congrArg f rest
    refine ⟨t, _, _, (respond_always read.1).trans (congrArg _ taken), treated.tester.trans queue, order, source'', level', used', rfl, rfl,
      attemptRouted_congr timer paths treated.front routes, marks, ?_, ?_, ?_, ?_, ?_, ?_, ?_, ?_⟩
    · rw [channel, pulsing]
    · rw [channel, driven]
    · rw [channel, idle]
    · rw [channel, quiet]
    · exact ((field (·.timer)).trans (keeps.timer rfl)).trans timer
    · exact ((field (·.lines)).trans keeps.lines).trans lines
    · exact ((field (·.evid.stopLatch)).trans keeps.latch).trans latch
    · obtain ⟨board, variant, area, pending⟩ := outside
      exact ⟨((field (·.board)).trans keeps.board).trans board, ((field (·.variant)).trans keeps.variant).trans variant,
        ((field (·.area)).trans keeps.area).trans area, ((field (·.pending)).trans keeps.pending).trans pending⟩

end Sys2Proof.Machine
end

section
/-! PROOF. The end of an attempt: the source's release, the judgement, and the velocities of a test that is over (R137, R139, R140,
R146). -/

namespace Sys2Proof.Machine

open Sys2Proof

variable {s t u : State} {c d : ChannelNo} {x : Test} {xs : List Test} {ps : List Partner}

/-! ## The release (R41, R42) -/

theorem clearRoutes_channel (ps : List Partner) (s : State) (c : ChannelNo) :
    ∃ route, (clearRoutes ps s).channel c = { s.channel c with route := route } := by
  unfold clearRoutes
  induction ps generalizing s with
  | nil => exact ⟨_, rfl⟩
  | cons p ps ih =>
    obtain ⟨route, eq⟩ := ih (if p.routed then clearRoute p.chan s else s)
    refine ⟨route, eq.trans ?_⟩
    split
    · by_cases same : c = p.chan
      · subst same
        rw [clearRoute, State.channel_onChannel_self]
      · rw [clearRoute, State.channel_onChannel_ne s same]
    · rfl

theorem releaseSource_self (pulses : (s.channel c).state = .pulsing) :
    (releaseSource c s).channel c = { s.channel c with state := .live, drive := none }.armed := by
  rw [releaseSource, if_pos pulses, (mouldFollow_keeps c _).channel c, State.channel_onChannel_self]

theorem releaseSource_ne (h : d ≠ c) (s : State) : (releaseSource c s).channel d = s.channel d := by
  unfold releaseSource
  split
  · rw [(mouldFollow_keeps c _).channel d, State.channel_onChannel_ne s h]
  · rfl

/-- While the mould is watched a report reaches no further than the mould state. -/
theorem mouldFollow_of_watching (h : watching s = true) (c : ChannelNo) : { mouldFollow c s with mould := s.mould } = s := by
  unfold mouldFollow
  split
  · rw [mouldDerive_of_watching (watching_iff.1 h)]
    rfl
  · rfl

theorem releaseSource_of_watching (h : watching s = true) (c : ChannelNo) :
    (releaseSource c s).xu = s.xu ∧ (releaseSource c s).freeNext = s.freeNext := by
  unfold releaseSource
  split
  · have same := mouldFollow_of_watching (s := s.onChannel c fun ch => { ch with state := .live, drive := none }.armed) h c
    exact ⟨(congrArg State.xu same :), (congrArg State.freeNext same :)⟩
  · exact ⟨rfl, rfl⟩

/-- The source is released and the routes are given back; the attempt has still to be judged. -/
def attemptOver (x : Test) (s : State) : State := clearRoutes x.partners (releaseSource x.source s)

theorem attemptOver_keeps (x : Test) (s : State) : Keeps { front := true, mould := true } s (attemptOver x s) :=
  (releaseSource_keeps x.source s).trans ((clearRoutes_keeps x.partners _).mono rfl)

theorem attemptOver_source (pulses : (s.channel x.source).state = .pulsing) :
    ((attemptOver x s).channel x.source).state = .live ∧ ((attemptOver x s).channel x.source).detector = .armed
      ∧ ((attemptOver x s).channel x.source).drive = none := by
  obtain ⟨route, eq⟩ := clearRoutes_channel x.partners (releaseSource x.source s) x.source
  rw [attemptOver, eq, releaseSource_self pulses]
  exact ⟨rfl, rfl, rfl⟩

/-- A channel is LIVE then, if it was before or is the source. -/
theorem attemptOver_live (pulses : (s.channel x.source).state = .pulsing) (c : ChannelNo) :
    live (attemptOver x s) c = true ↔ live s c = true ∨ c = x.source := by
  rw [live_iff, live_iff]
  by_cases same : c = x.source
  · subst same
    exact iff_of_true (attemptOver_source pulses).1 (.inr rfl)
  · obtain ⟨route, eq⟩ := clearRoutes_channel x.partners (releaseSource x.source s) c
    rw [attemptOver, eq, releaseSource_ne same]
    simp [same]

theorem clearRoutes_xu (ps : List Partner) (s : State) : (clearRoutes ps s).xu = s.xu ∧ (clearRoutes ps s).freeNext = s.freeNext := by
  unfold clearRoutes
  induction ps generalizing s with
  | nil => exact ⟨rfl, rfl⟩
  | cons p ps ih =>
    obtain ⟨xu, free⟩ := ih (if p.routed then clearRoute p.chan s else s)
    refine ⟨xu.trans ?_, free.trans ?_⟩ <;> split <;> rfl

theorem attemptOver_xu (x : Test) (h : watching s = true) : (attemptOver x s).xu = s.xu ∧ (attemptOver x s).freeNext = s.freeNext := by
  obtain ⟨xu, free⟩ := releaseSource_of_watching h x.source
  obtain ⟨xu', free'⟩ := clearRoutes_xu x.partners (releaseSource x.source s)
  exact ⟨xu'.trans xu, free'.trans free⟩

/-! ## The judgement (R139) -/

/-- The head test with its attempt counted. -/
def countedTest (x : Test) : Test :=
  { x with used := x.used + 1, lastLevel := x.level, attempt := none, partners := x.partners.map (judgedPartner (x.used + 1)) }

/-- Another attempt is due: a LIVE partner has no outcome yet, and attempts are left. -/
def AttemptDue (x : Test) (s : State) : Prop :=
  (∃ p ∈ x.partners.map (judgedPartner (x.used + 1)), p.outcome = none ∧ live s p.chan = true) ∧ x.used + 1 ≠ x.allowed

theorem ends_iff :
    (!((countedTest x).partners.any (eligible s)) || decide (x.used + 1 = x.allowed)) = true ↔ ¬ AttemptDue x s := by
  simp only [AttemptDue, countedTest, eligible, Bool.or_eq_true, Bool.not_eq_true', List.any_eq_false, Bool.and_eq_true, decide_eq_true_eq,
    not_and_or, not_exists, not_not, ne_eq, imp_iff_not_or]

theorem judgeAttempt_rests (head : s.tester = x :: xs) (due : AttemptDue x s) :
    judgeAttempt s = s.onTest fun _ => { countedTest x with level := min 7 (x.level + 1), state := .resting, rest := some restTicks } := by
  rw [judgeAttempt, head]
  exact if_neg (mt ends_iff.1 (not_not_intro due))

theorem judgeAttempt_ends (head : s.tester = x :: xs) (done : ¬ AttemptDue x s) :
    judgeAttempt s = judgeQueue (dropHead (endTest .ok (countedTest x) s)) := by
  rw [judgeAttempt, head]
  exact if_pos (ends_iff.2 done)

theorem onTest_eq (head : s.tester = x :: xs) (f : Test → Test) : s.onTest f = { s with tester := f x :: xs } := by
  rw [State.onTest, head]

/-! ## Velocities (R146) -/

theorem partnerVelocity_some {p : Partner} {h : Heard} {v : Nat} (heard : p.heard = some h) (ok : h.calibration = .ok)
    (velocity : h.velocity = some v) : partnerVelocity p = some v := by
  rw [partnerVelocity, heard]
  exact (if_pos ok).trans velocity

theorem partnerVelocity_none {p : Partner} (h : ∀ e : Heard, p.heard = some e → e.calibration = .ok → e.velocity = none) :
    partnerVelocity p = none := by
  unfold partnerVelocity
  split
  next e heard =>
    split
    next ok => exact h e heard ok
    · rfl
  · rfl

theorem applyVelocities_cons (p : Partner) (ps : List Partner) (s : State) :
    applyVelocities (p :: ps) s =
      applyVelocities ps (match partnerVelocity p with | some v => replaceVelocity p.path v s | none => s) := rfl

/-- A path with no velocity to apply stands. -/
theorem applyVelocities_of_none (ps : List Partner) (s : State) (i : Nat) (h : ∀ p ∈ ps, p.path = i → partnerVelocity p = none) :
    (pathsOf (applyVelocities ps s))[i]? = (pathsOf s)[i]? := by
  induction ps generalizing s with
  | nil => rfl
  | cons p ps ih =>
    rw [applyVelocities_cons, ih _ fun q mem => h q (List.mem_cons_of_mem _ mem)]
    split
    next v velocity =>
      have other : p.path ≠ i := fun same => by
        rw [h p List.mem_cons_self same] at velocity
        cases velocity
      rw [pathsOf_replaceVelocity, List.getElem?_modify_ne _ _ other]
    · rfl

/-- A path with one velocity to apply takes it. -/
theorem applyVelocities_of_some (ps : List Partner) (s : State) (nodup : (ps.map (·.path)).Nodup) {p : Partner} {v : Nat} (mem : p ∈ ps)
    (velocity : partnerVelocity p = some v) :
    (pathsOf (applyVelocities ps s))[p.path]? = (pathsOf s)[p.path]?.map (PathEntry.replaced v) := by
  induction ps generalizing s with
  | nil => exact absurd mem List.not_mem_nil
  | cons q ps ih =>
    rw [List.map_cons, List.nodup_cons] at nodup
    rw [applyVelocities_cons]
    rcases List.mem_cons.1 mem with rfl | mem
    · rw [velocity, applyVelocities_of_none ps _ p.path fun q mem same => absurd (List.mem_map.2 ⟨q, mem, same⟩) nodup.1,
        pathsOf_replaceVelocity, List.getElem?_modify_eq]
      rfl
    · rw [ih _ nodup.2 mem]
      split
      next w _ =>
        have other : q.path ≠ p.path := fun same => nodup.1 (List.mem_map.2 ⟨p, mem, same.symm⟩)
        rw [pathsOf_replaceVelocity, List.getElem?_modify_ne _ _ other]
      · rfl

theorem zonesOf_applyVelocities (ps : List Partner) (s : State) : zonesOf (applyVelocities ps s) = zonesOf s := by
  induction ps generalizing s with
  | nil => rfl
  | cons p ps ih =>
    rw [applyVelocities_cons, ih]
    split
    · exact zonesOf_replaceVelocity _ _ _
    · rfl

theorem applyVelocities_frame (ps : List Partner) (s : State) : { applyVelocities ps s with evid := s.evid } = s := by
  induction ps generalizing s with
  | nil => rfl
  | cons p ps ih =>
    rw [applyVelocities_cons]
    refine (congrArg (fun u : State => { u with evid := s.evid }) (ih _)).trans ?_
    split <;> rfl

/-- Closing and marking the partners changes neither the paths nor what is applied to them. -/
theorem finalPartners_of_apply (x : Test) (apply : x.apply = true) (how : TestEnd) (ok : how = .ok) :
    finalPartners how x = x.partners.map fun p => appliedPartner (closedPartner p) := by
  subst ok
  simp [finalPartners, apply, Function.comp_def]

/-- The state of a test's end before its result is given. -/
def testOver (x : Test) (s : State) : State :=
  accrue flagTestDone (if x.apply = true then applyVelocities (x.partners.map fun p => appliedPartner (closedPartner p)) s else s)

theorem endTest_ok (x : Test) (s : State) : endTest .ok x s = giveResult x.order (testResult .ok x) (testOver x s) := by
  rw [endTest, testOver]
  by_cases apply : x.apply = true
  · rw [if_pos ⟨rfl, apply⟩, if_pos apply, finalPartners_of_apply x apply .ok rfl]
  · rw [if_neg fun e => apply e.2, if_neg apply]

theorem testOver_frame (x : Test) (s : State) :
    { testOver x s with evid := s.evid, xu := { (testOver x s).xu with accruals := s.xu.accruals } } = s := by
  have accrued (v : State) (frame : { v with evid := s.evid } = s) :
      { accrue flagTestDone v with evid := s.evid, xu := { (accrue flagTestDone v).xu with accruals := s.xu.accruals } } = s := by
    have xu : v.xu = s.xu := (congrArg State.xu frame :)
    rw [← xu]
    exact frame
  unfold testOver
  split
  · exact accrued _ (applyVelocities_frame _ s)
  · exact accrued s rfl

theorem endTest_ok_evid (x : Test) (s : State) : (endTest .ok x s).evid = (testOver x s).evid := by
  rw [endTest_ok, (giveResult_keeps (p := exchangeOnly) _ _ _).evid rfl]

theorem endTest_ok_flag (x : Test) (s : State) : (endTest .ok x s).xu.accruals.flags &&& flagBit 8 = flagBit 8 := by
  rw [endTest_ok, giveResult_accruals]
  exact or_and_self_right _ _

/-- While ACTIVE with room the result of the test gets its job. -/
theorem endTest_ok_queue {head : Option OrderHead} (cell : s.xu.cells[x.order.cell] = .inHand x.order.take head) (ha : active s = true)
    (hq : queueRoom s = true) :
    (endTest .ok x s).xu.queue = s.xu.queue ++ [jobOf s 0 (.result x.order.cell x.order.take (notifyOf head) (testResult .ok x))] := by
  have frame := testOver_frame x s
  rw [endTest_ok]
  generalize testOver x s = v at *
  have field {α : Type} (f : State → α) : f { v with evid := s.evid, xu := { v.xu with accruals := s.xu.accruals } } = f s := congrArg f frame
  have cells : v.xu.cells = s.xu.cells := field (·.xu.cells)
  have given := giveResult_of_room (s := v) (o := x.order) (r := testResult .ok x) (head := head) (by rw [cells, cell])
    ((field active).trans ha) ((field queueRoom).trans hq)
  have queue : v.xu.queue = s.xu.queue := field (·.xu.queue)
  have job : jobOf v 0 (.result x.order.cell x.order.take (notifyOf head) (testResult .ok x)) =
      jobOf s 0 (.result x.order.cell x.order.take (notifyOf head) (testResult .ok x)) := field fun u => jobOf u 0 _
  rw [given, addJob_queue, queue, job]

theorem judgedPartner_path (used : Nat) (p : Partner) : (judgedPartner used p).path = p.path := by
  unfold judgedPartner
  split <;> rfl

theorem exec_attemptEndTick {a : Attempt} (hh : held s = false) (head : s.tester = x :: xs) (listens : x.state = .listening)
    (attempt : x.attempt = some a) (reached : diff32 a.endTick a.pulseTick ≤ diff32 s.timer.clock a.pulseTick) :
    exec .attemptEndTick s = .next (endAttemptTick x s) := by
  have takes : takeEndTick s = endAttemptTick x s := by rw [takeEndTick, head]
  exact (respond_of_due hh (attemptDue_iff.2 ⟨x, a, by rw [head]; rfl, listens, attempt, reached⟩)).trans (congrArg _ takes)

theorem endAttemptTick_of_open (h : ∃ p ∈ x.partners, p.routed = true ∧ p.hitOpen = true) :
    endAttemptTick x s = (attemptOver x s).onTest fun t => { t with state := .draining } := by
  have heard : (x.partners.any fun p => p.routed && p.hitOpen) = true := by simpa using h
  exact if_pos heard

theorem endAttemptTick_of_quiet (h : ¬ ∃ p ∈ x.partners, p.routed = true ∧ p.hitOpen = true) :
    endAttemptTick x s = judgeAttempt (attemptOver x s) := by
  have quiet : ¬ (x.partners.any fun p => p.routed && p.hitOpen) = true := by simpa using h
  exact if_neg quiet

/-- What a test that is over does to the paths. -/
theorem endTest_ok_paths (x : Test) (s : State) :
    (x.apply = false → pathsOf (endTest .ok x s) = pathsOf s)
      ∧ (x.apply = true → (x.partners.map (·.path)).Nodup → ∀ (i : Nat) (q : PathEntry), (pathsOf s)[i]? = some q →
          (∀ p ∈ x.partners, ∀ (h : Heard) (v : Nat), p.path = i → p.heard = some h → h.calibration = .ok → h.velocity = some v →
              (pathsOf (endTest .ok x s))[i]? =
                some { q with velocity := v, calibrated := true, window := pathWindow q.length v q.margin })
            ∧ ((∀ p ∈ x.partners, ∀ h : Heard, p.path = i → p.heard = some h → h.calibration = .ok → h.velocity = none) →
                (pathsOf (endTest .ok x s))[i]? = some q)) := by
  rw [pathsOf_congr (endTest_ok_evid x s), testOver]
  refine ⟨fun unapplied => ?_, fun apply nodup i q entry => ?_⟩
  · rw [if_neg (by simp [unapplied])]
    rfl
  · rw [if_pos apply]
    have same : pathsOf (accrue flagTestDone (applyVelocities (x.partners.map fun p => appliedPartner (closedPartner p)) s)) =
        pathsOf (applyVelocities (x.partners.map fun p => appliedPartner (closedPartner p)) s) := rfl
    rw [same]
    refine ⟨fun p mem h v at' heard ok velocity => ?_, fun none => ?_⟩
    · have taken := applyVelocities_of_some (x.partners.map fun p => appliedPartner (closedPartner p)) s
        (by rw [List.map_map]; exact nodup) (List.mem_map.2 ⟨p, mem, rfl⟩) (partnerVelocity_some heard ok velocity)
      have path : (appliedPartner (closedPartner p)).path = i := at'
      rw [path, entry] at taken
      exact taken
    · rw [applyVelocities_of_none _ s i fun p mem at' => ?_, entry]
      obtain ⟨q, among, rfl⟩ := List.mem_map.1 mem
      exact partnerVelocity_none (none q among · at')

theorem zonesOf_endTest_ok (x : Test) (s : State) : zonesOf (endTest .ok x s) = zonesOf s := by
  rw [zonesOf_congr (endTest_ok_evid x s), testOver]
  split
  · exact zonesOf_applyVelocities _ s
  · rfl

/-- Settles O43. -/
theorem attemptEnds : Obligations.AttemptEnds := by
  intro x xs a s hh head listens attempt reached pulses
  have keeps := attemptOver_keeps x s
  have queue : (attemptOver x s).tester = x :: xs := (keeps.tester rfl).trans head
  have released := attemptOver_source pulses
  have due : AttemptDue x (attemptOver x s) ↔
      (∃ p ∈ x.partners.map (judgedPartner (x.used + 1)), p.outcome = none ∧ (live s p.chan = true ∨ p.chan = x.source))
        ∧ x.used + 1 ≠ x.allowed := by
    rw [AttemptDue]
    simp only [attemptOver_live pulses]
  have unit := attemptOver_xu (s := s) x
  rw [exec_attemptEndTick hh head listens attempt reached]
  refine ⟨fun heard => ?_, fun quiet again => ?_, fun quiet done empty => ?_⟩
  · rw [endAttemptTick_of_open heard, onTest_eq queue]
    generalize attemptOver x s = v at *
    exact ⟨_, rfl, rfl, released.1, released.2.1, released.2.2, keeps.timer rfl, keeps.corr rfl, keeps.evid rfl, keeps.lines, keeps.outside⟩
  · rw [endAttemptTick_of_quiet quiet, judgeAttempt_rests queue (due.2 again), onTest_eq queue]
    generalize attemptOver x s = v at *
    exact ⟨_, rfl, rfl, released.1, released.2.1, released.2.2, keeps.timer rfl, keeps.corr rfl, keeps.evid rfl, keeps.lines, keeps.outside⟩
  · subst empty
    rw [endAttemptTick_of_quiet quiet, judgeAttempt_ends queue (mt due.1 done)]
    generalize attemptOver x s = v at *
    have ended := endTest_keeps .ok (countedTest x) v
    have last : (dropHead (endTest .ok (countedTest x) v)).tester = [] := by
      rw [dropHead, ended.tester rfl, queue]
      rfl
    have paths := endTest_ok_paths (countedTest x) v
    have flag := endTest_ok_flag (countedTest x) v
    have zones := zonesOf_endTest_ok (countedTest x) v
    have result {head : Option OrderHead} := endTest_ok_queue (x := countedTest x) (s := v) (head := head)
    have pathsSame : pathsOf v = pathsOf s := pathsOf_congr (keeps.evid rfl)
    have zonesSame : zonesOf v = zonesOf s := zonesOf_congr (keeps.evid rfl)
    have chans : (countedTest x).partners.map (·.path) = x.partners.map (·.path) := by
      rw [countedTest, List.map_map]
      exact List.map_congr_left fun p _ => judgedPartner_path _ p
    rw [judgeQueue_of_noTest last]
    generalize endTest .ok (countedTest x) v = w at *
    rw [pathsSame, chans] at paths
    refine ⟨dropHead w, rfl, last, ?_, ?_, ?_, flag, zones.trans zonesSame, paths.1, paths.2, fun head cell ha hq watched => ?_,
      (ended.timer rfl).trans (keeps.timer rfl), (ended.corr rfl).trans (keeps.corr rfl), ended.lines.trans keeps.lines,
      ended.latch.trans keeps.latch, (ended.board.trans keeps.board), ended.variant.trans keeps.variant, ended.area.trans keeps.area,
      ended.pending.trans keeps.pending⟩
    · exact (congrArg Channel.state (ended.channel x.source rfl)).trans released.1
    · exact (congrArg Channel.detector (ended.channel x.source rfl)).trans released.2.1
    · exact (congrArg Channel.drive (ended.channel x.source rfl)).trans released.2.2
    · obtain ⟨xu, free⟩ := unit watched
      have job (b : JobBody) : jobOf v 0 b = jobOf s 0 b := by rw [jobOf, jobOf, baseOf, baseOf, xu, free]
      have queued := result (head := head) (by rw [xu]; exact cell) ((active_congr (by rw [xu])).trans ha) (by rw [queueRoom, xu]; exact hq)
      rw [job, xu] at queued
      exact queued

end Sys2Proof.Machine
end

section
/-! PROOF. The take of a programme page: its fields, the groups that are held, the delivery and the echo (R18, R19, R156, R157). -/

namespace Sys2Proof.Machine

open Sys2Proof

variable {s t u : State} {bytes : List Byte}

/-! ## Fields (Table 54) -/

theorem within_iff {lo hi n : Nat} : within lo hi n = true ↔ lo ≤ n ∧ n ≤ hi := by simp [within]

/-- A group in range takes the value read, and a held one keeps its own. -/
theorem taken_eq {α : Type} {ok : Bool} {P : Prop} [Decidable P] (h : ok = true ↔ P) (read old : α) :
    taken ok read old = if P then read else old := if_congr h rfl rfl

theorem edgeOf_getD (n : Nat) (old : EdgeSel) :
    (edgeOf n).getD old = if n = 0 then .none else if n = 1 then .rising else if n = 2 then .falling else if n = 3 then .both else old := by
  match n with
  | 0 | 1 | 2 | 3 => rfl
  | n + 4 => rfl

theorem cycEdgeOf_getD (n : Nat) (old : EdgeSel) :
    (cycEdgeOf n).getD old = if n = 1 then .rising else if n = 2 then .falling else if n = 3 then .both else old := by
  match n with
  | 0 | 1 | 2 | 3 => rfl
  | n + 4 => rfl

theorem anchorOf_eq (n : Nat) :
    anchorOf n =
      if n ≤ 5 then
        some (if n = 0 then .none else if n = 1 then .cyc else if n = 2 then .phase .feed else if n = 3 then .phase .vib
          else if n = 4 then .phase .tamp else .phase .strip)
      else none := by
  match n with
  | 0 | 1 | 2 | 3 | 4 | 5 => rfl
  | n + 6 => rfl

/-- A window of the page, within Table 6 or held. -/
theorem pageWindow_getD (bs : List Byte) (w : Nat) (old : WindowDef) :
    (pageWindow bs w).getD old =
      if u8 bs (0x10 + 16 * w) ≤ 5 ∧ u8 bs (0x10 + 16 * w + 1) ≤ 15 ∧ u8 bs (0x10 + 16 * w + 2) ≤ 40
          ∧ u32 bs (0x10 + 16 * w + 4) < 2 ^ 31 ∧ 1 ≤ u32 bs (0x10 + 16 * w + 8) ∧ u32 bs (0x10 + 16 * w + 8) ≤ 2 ^ 31 then
        { anchor :=
            if u8 bs (0x10 + 16 * w) = 0 then .none else if u8 bs (0x10 + 16 * w) = 1 then .cyc
            else if u8 bs (0x10 + 16 * w) = 2 then .phase .feed else if u8 bs (0x10 + 16 * w) = 3 then .phase .vib
            else if u8 bs (0x10 + 16 * w) = 4 then .phase .tamp else .phase .strip
          weight := u8 bs (0x10 + 16 * w + 1), raise := u8 bs (0x10 + 16 * w + 2), offset := u32 bs (0x10 + 16 * w + 4)
          length := u32 bs (0x10 + 16 * w + 8) }
      else old := by
  unfold pageWindow
  dsimp only
  rw [anchorOf_eq]
  by_cases anchored : u8 bs (0x10 + 16 * w) ≤ 5
  · rw [if_pos anchored]
    dsimp only
    simp only [anchored, true_and]
    split <;> rfl
  · rw [if_neg anchored]
    simp only [anchored, false_and, if_false]
    rfl

theorem thresholdsOk_iff (bs : List Byte) :
    thresholdsOk (u16 bs 0x98) (u16 bs 0x9A) (u16 bs 0x9C) (u16 bs 0x9E) = true ↔
      1 ≤ u16 bs 0x98 ∧ u16 bs 0x98 < u16 bs 0x9A ∧ u16 bs 0x9A < u16 bs 0x9C ∧ u16 bs 0x9E < u16 bs 0x98 := by
  have w := u16_le bs 0x98
  have s := u16_le bs 0x9A
  have c := u16_le bs 0x9C
  simp only [thresholdsOk, within, Bool.and_eq_true, decide_eq_true_eq]
  omega

/-! ## The programme taken (Table 48) -/

theorem takeProgramme_window (old : Programme) (bs : List Byte) (w : WindowNo) :
    (takeProgramme old bs).timing.windows[w] = (pageWindow bs w.val).getD old.timing.windows[w] := by
  fin_cases w <;> rfl

theorem takeProgramme_phaseEdge (old : Programme) (bs : List Byte) {q : PhaseLine} {i : Nat}
    (mem : (q, i) ∈ [(PhaseLine.feed, 1), (.vib, 2), (.tamp, 3), (.strip, 4)]) :
    (takeProgramme old bs).timing.phaseEdge.at q = (edgeOf (u8 bs i)).getD (old.timing.phaseEdge.at q) := by
  simp only [List.mem_cons, Prod.mk.injEq, List.not_mem_nil, or_false] at mem
  rcases mem with ⟨rfl, rfl⟩ | ⟨rfl, rfl⟩ | ⟨rfl, rfl⟩ | ⟨rfl, rfl⟩ <;> rfl

theorem takeProgramme_stallLimit (old : Programme) (bs : List Byte) :
    (takeProgramme old bs).timing.stallLimit =
      if 1000 ≤ u32 bs 8 ∧ u32 bs 8 ≤ 400000 then u32 bs 8 else old.timing.stallLimit := taken_eq within_iff _ _

theorem takeProgramme_hitDef (old : Programme) (bs : List Byte) :
    (takeProgramme old bs).hitDef =
      { hdt := if 10 ≤ u16 bs 0x90 ∧ u16 bs 0x90 ≤ 1000 then u16 bs 0x90 else old.hitDef.hdt
        hlt := if u16 bs 0x92 ≤ 10000 then u16 bs 0x92 else old.hitDef.hlt
        maxDuration := if 100 ≤ u16 bs 0x94 then u16 bs 0x94 else old.hitDef.maxDuration
        minCounts := if 1 ≤ u8 bs 0x96 then u8 bs 0x96 else old.hitDef.minCounts } := by
  have longest := u16_le bs 0x94
  have most := u8_le bs 0x96
  have hdt : within 10 1000 (u16 bs 0x90) = true ↔ 10 ≤ u16 bs 0x90 ∧ u16 bs 0x90 ≤ 1000 := within_iff
  have hlt : within 0 10000 (u16 bs 0x92) = true ↔ u16 bs 0x92 ≤ 10000 := by rw [within_iff]; omega
  have maxDuration : within 100 65535 (u16 bs 0x94) = true ↔ 100 ≤ u16 bs 0x94 := by rw [within_iff]; omega
  have minCounts : within 1 255 (u8 bs 0x96) = true ↔ 1 ≤ u8 bs 0x96 := by rw [within_iff]; omega
  rw [← taken_eq hdt, ← taken_eq hlt, ← taken_eq maxDuration, ← taken_eq minCounts]
  rfl

theorem takeProgramme_decay (old : Programme) (bs : List Byte) :
    (takeProgramme old bs).evidence.decay = if u8 bs 0x97 ≤ 15 then u8 bs 0x97 else old.evidence.decay :=
  taken_eq (by rw [within_iff]; omega) _ _

theorem takeProgramme_thresholds (old : Programme) (bs : List Byte) :
    if 1 ≤ u16 bs 0x98 ∧ u16 bs 0x98 < u16 bs 0x9A ∧ u16 bs 0x9A < u16 bs 0x9C ∧ u16 bs 0x9E < u16 bs 0x98 then
      (takeProgramme old bs).evidence.tWatch = u16 bs 0x98 ∧ (takeProgramme old bs).evidence.tSuspect = u16 bs 0x9A
        ∧ (takeProgramme old bs).evidence.tCrack = u16 bs 0x9C ∧ (takeProgramme old bs).evidence.hysteresis = u16 bs 0x9E
    else
      (takeProgramme old bs).evidence.tWatch = old.evidence.tWatch ∧ (takeProgramme old bs).evidence.tSuspect = old.evidence.tSuspect
        ∧ (takeProgramme old bs).evidence.tCrack = old.evidence.tCrack
        ∧ (takeProgramme old bs).evidence.hysteresis = old.evidence.hysteresis := by
  have group := thresholdsOk_iff bs
  split
  next ordered => exact ⟨if_pos (group.2 ordered), if_pos (group.2 ordered), if_pos (group.2 ordered), if_pos (group.2 ordered)⟩
  next held =>
    have out := mt group.1 held
    exact ⟨if_neg out, if_neg out, if_neg out, if_neg out⟩

theorem takeProgramme_suspectRun (old : Programme) (bs : List Byte) :
    (takeProgramme old bs).evidence.suspectRun = if u8 bs 0xA0 ≠ 1 then u8 bs 0xA0 else old.evidence.suspectRun := by
  have most := u8_le bs 0xA0
  refine taken_eq ?_ _ _
  simp only [Bool.or_eq_true, decide_eq_true_eq, within_iff]
  omega

theorem takeProgramme_stopOnCrack (old : Programme) (bs : List Byte) :
    (takeProgramme old bs).evidence.stopOnCrack = if u8 bs 0xA1 ≤ 1 then decide (u8 bs 0xA1 = 1) else old.evidence.stopOnCrack :=
  taken_eq (by rw [within_iff]; omega) _ _

theorem takeProgramme_mould (old : Programme) (bs : List Byte) :
    (takeProgramme old bs).mountTimeout = (if 1 ≤ u8 bs 0xA2 then u8 bs 0xA2 else old.mountTimeout)
      ∧ (takeProgramme old bs).checkpointInterval = u16 bs 0xA8 := by
  have most := u8_le bs 0xA2
  have longest := u16_le bs 0xA8
  exact ⟨taken_eq (by rw [within_iff]; omega) _ _, if_pos (within_iff.2 ⟨Nat.zero_le _, longest⟩)⟩

theorem takeProgramme_exchange (old : Programme) (bs : List Byte) :
    (takeProgramme old bs).noticeMask = (if u16 bs 0xAA < 2048 then BitVec.ofNat 16 (u16 bs 0xAA) else old.noticeMask)
      ∧ (takeProgramme old bs).listSelection = (if u8 bs 0xA3 ≤ 3 ∧ u8 bs 0xA4 ≤ 3 then u8 bs 0xA3 else old.listSelection)
      ∧ (takeProgramme old bs).listLevel = (if u8 bs 0xA3 ≤ 3 ∧ u8 bs 0xA4 ≤ 3 then u8 bs 0xA4 else old.listLevel) := by
  have list : (within 0 3 (u8 bs 0xA3) && within 0 3 (u8 bs 0xA4)) = true ↔ u8 bs 0xA3 ≤ 3 ∧ u8 bs 0xA4 ≤ 3 := by
    simp [within_iff]
  exact ⟨taken_eq decide_eq_true_iff _ _, taken_eq list _ _, taken_eq list _ _⟩

/-! ## The delivery (R18, R19, R157) -/

/-- A programme delivered, marked in the record, and its echo issued. -/
def pageTaken (flags : Half) (p : Programme) (w : BusWrite) (s : State) : State :=
  scanTo (.echo w) (((accrue flags (deliverProgramme p s)).onXu fun x => { x with lastTaken := some x.scan.generation }).useFree)

theorem takePage_eq (page : List Byte) (s : State) :
    takePage page s =
      pageTaken (takeFlags page) (takeProgramme (effectiveProgramme s) page)
        (echoWrite page (takeProgramme (effectiveProgramme s) page) s) s := rfl

/-- The programme in force afterwards is the one taken. -/
theorem effectiveProgramme_pageTaken (flags : Half) (p : Programme) (w : BusWrite) (s : State) :
    effectiveProgramme (pageTaken flags p w s) = p := by
  have timing : (deliverTiming p.timing s.timer).pendingPart.getD (deliverTiming p.timing s.timer).installed = p.timing := by
    unfold deliverTiming
    split <;> rfl
  have all : effectiveProgramme (pageTaken flags p w s) =
      { p with timing := (deliverTiming p.timing s.timer).pendingPart.getD (deliverTiming p.timing s.timer).installed } := rfl
  rw [all, timing]

theorem deliverTiming_of_running {p : TimingPart} {t : CycleTimer} (h : t.press = .running) :
    deliverTiming p t = { t with pendingPart := some p } := by rw [deliverTiming, h]

theorem deliverTiming_of_stopped {p : TimingPart} {t : CycleTimer} (h : t.press = .stopped) :
    deliverTiming p t = { t with installed := p, pendingPart := none, windows := reinstallWindows t p.windows } := by rw [deliverTiming, h]

theorem reinstallWindows_get (t : CycleTimer) (d : Vector WindowDef 8) (w : WindowNo) :
    (reinstallWindows t d)[w] = reinstallWindow t t.windows[w] d[w] := by
  fin_cases w <;> rfl

theorem reinstallWindow_of_started {t : CycleTimer} {w : Window} (d : WindowDef)
    (h : w.state = .pending ∨ w.state = .open ∨ w.state = .spent) : reinstallWindow t w d = w := by
  rcases h with h | h | h <;> rw [reinstallWindow, h]

theorem reinstallWindow_of_waiting {t : CycleTimer} {w : Window} (d : WindowDef) (h : w.state = .disabled ∨ w.state = .waiting) :
    (reinstallWindow t w d).defn = d
      ∧ (reinstallWindow t w d).state =
          if d.anchor = .none then .disabled else if (anchorCapture t d.anchor).isSome = true then .spent else .waiting := by
  rcases h with h | h <;> rw [reinstallWindow, h] <;> exact ⟨rfl, rfl⟩

/-- Flags that accrue are then there. -/
theorem accrued_of_part {f g h : Half} (k : g &&& h = h) : (f ||| g) &&& h = h := by
  rw [BitVec.or_comm]
  exact and_or_self_left k

theorem takeFlags_taken (page : List Byte) : takeFlags page &&& flagBit 6 = flagBit 6 := and_or_self_left (BitVec.and_self)

theorem takeFlags_held {page : List Byte} (h : 0 < heldCount page) : takeFlags page &&& flagBit 7 = flagBit 7 := by
  rw [takeFlags, decide_eq_true h]
  exact or_and_self_right _ _

theorem exec_programmeReadDone (hh : held s = false) (phase : s.xu.scan.phase = .programme) (going : s.xu.scan.abandoned = false)
    (len : bytes.length = 172) : exec (.programmeReadDone bytes) s = .next (takePage bytes s) := by
  have due : (decide (s.xu.scan.phase = .programme) && decide (bytes.length = 172)) = true := by simp [phase, len]
  have answer := respond_of_due (due := fun s => decide (s.xu.scan.phase = .programme) && decide (bytes.length = 172))
    (f := scanOn (takePage bytes)) hh due
  rw [scanOn_of_going going] at answer
  exact answer

theorem echoDone_eq {w : BusWrite} (phase : s.xu.scan.phase = .echo w) (going : s.xu.scan.abandoned = false) :
    echoDone s = scanTo .board (s.land w) := by
  rw [echoDone, phase]
  exact scanOn_of_going (s := s.land w) going

/-- Settles O51. -/
theorem programmeTaken : Obligations.ProgrammeTaken := by
  intro s hh going
  refine ⟨fun bytes phase len => ?_, fun w phase len => ?_⟩
  · have keeps := takePage_keeps bytes s
    have answer := exec_programmeReadDone hh phase going len
    have hitDef := takeProgramme_hitDef (effectiveProgramme s) bytes
    have decay := takeProgramme_decay (effectiveProgramme s) bytes
    have thresholds := takeProgramme_thresholds (effectiveProgramme s) bytes
    have suspectRun := takeProgramme_suspectRun (effectiveProgramme s) bytes
    have stopOnCrack := takeProgramme_stopOnCrack (effectiveProgramme s) bytes
    have cycEdge : (takeProgramme (effectiveProgramme s) bytes).timing.cycEdge = _ := cycEdgeOf_getD (u8 bytes 0) _
    have phaseEdge (q : PhaseLine) (i : Nat) (mem : (q, i) ∈ [(PhaseLine.feed, 1), (.vib, 2), (.tamp, 3), (.strip, 4)]) :=
      (takeProgramme_phaseEdge (effectiveProgramme s) bytes mem).trans (edgeOf_getD (u8 bytes i) _)
    have stallLimit := takeProgramme_stallLimit (effectiveProgramme s) bytes
    have windows (w : WindowNo) := (takeProgramme_window (effectiveProgramme s) bytes w).trans (pageWindow_getD bytes w.val _)
    obtain ⟨timeout, checkpointInterval⟩ := takeProgramme_mould (effectiveProgramme s) bytes
    have mountTimeout : (takeProgramme (effectiveProgramme s) bytes).mountTimeout =
        if 1 ≤ u8 bytes 0xA2 then u8 bytes 0xA2 else s.mould.mountTimeout := timeout
    obtain ⟨noticeMask, listSelection, listLevel⟩ := takeProgramme_exchange (effectiveProgramme s) bytes
    rw [takePage_eq] at answer keeps
    generalize written : echoWrite bytes (takeProgramme (effectiveProgramme s) bytes) s = w at answer keeps
    generalize takeProgramme (effectiveProgramme s) bytes = p at *
    have effective := effectiveProgramme_pageTaken (takeFlags bytes) p w s
    have timer : (pageTaken (takeFlags bytes) p w s).timer = deliverTiming p.timing s.timer := rfl
    refine ⟨pageTaken (takeFlags bytes) p w s, p.timing, answer, cycEdge, phaseEdge, stallLimit, fun w o at' => ?_, hitDef, decay, thresholds,
      suspectRun, stopOnCrack, ?_, noticeMask, listSelection, listLevel, fun running => ?_, fun stopped => ?_, rfl, ?_, fun some => ?_,
      ⟨w, rfl, ?_, ?_⟩, rfl, rfl, rfl, rfl, rfl, rfl, keeps.outside⟩
    · subst at'
      exact windows w
    · rw [← mountTimeout, ← checkpointInterval]
      rfl
    · rw [timer, deliverTiming_of_running running]
    · rw [timer, deliverTiming_of_stopped stopped]
      refine ⟨rfl, rfl, fun w started => ?_, fun w waits => ?_⟩
      · rw [reinstallWindows_get]
        exact reinstallWindow_of_started _ started
      · dsimp only
        rw [reinstallWindows_get]
        exact reinstallWindow_of_waiting _ waits
    · exact accrued_of_part (takeFlags_taken bytes)
    · exact accrued_of_part (takeFlags_held some)
    · rw [← written]
      rfl
    · rw [effective, ← written]
      rfl
  · obtain ⟨inside, outside⟩ := land_lands w s len
    refine ⟨_, (respond_always hh).trans (congrArg _ (echoDone_eq phase going)), ⟨inside, outside⟩, rfl, ?_⟩
    cases s
    rfl

end Sys2Proof.Machine
end

section
/-! PROOF. A quiet cycle close (R4, R88 to R98, R124 to R126, R154, R164, R168 to R170): what it does to the zones, the stop latch, the
record, the mirror and the checkpoint. -/

namespace Sys2Proof.Machine

open Sys2Proof

variable {s t u : State}

/-! ## The close through the blocks, with no event, hit or test in hand -/

/-- What the blocks have done to a quiet cycle when the exchange unit takes its close, with the next cycle open. -/
def quietClosed (s : State) : State := (mouldClose (evidenceClose (zeroTally s))).onTimer openCycle

theorem closeSound_of_quiet (part : Nat) (events : s.corr.events = []) (tests : s.tester = []) (quiet : NoHit s) :
    closeSound part s = s := by
  rw [closeSound, corrClose, testerClose_of_noTest tests, releaseIn_of_noTest _ _ tests, cutHits_of_noHit quiet,
    cutEvents_of_noEvent events, releaseIn_of_noTest _ _ tests]

theorem closedBlocks_of_quiet (events : s.corr.events = []) (tests : s.tester = []) (quiet : NoHit s) :
    closedBlocks s = quietClosed s := by
  rw [closedBlocks, drawRelease_of_noTest tests, closeSound_of_quiet _ events tests quiet,
    releaseIn_of_noTest _ _ (show (evidenceClose (zeroTally s)).tester = [] from tests)]
  rfl

theorem closingFacts_of_quiet (events : s.corr.events = []) (tests : s.tester = []) (quiet : NoHit s) :
    closingFacts s = closeFacts s s.corr.tallies (closeReport s) := by
  rw [closingFacts, drawRelease_of_noTest tests, closeSound_of_quiet _ events tests quiet]

theorem quietClosed_evid (s : State) : (quietClosed s).evid = (evidenceClose s).evid :=
  (mouldClose_keeps (evidenceClose (zeroTally s))).evid rfl

theorem quietClosed_front (s : State) : (quietClosed s).front = s.front := (mouldClose_keeps (evidenceClose (zeroTally s))).front rfl

theorem quietClosed_tester (s : State) : (quietClosed s).tester = s.tester := (mouldClose_keeps (evidenceClose (zeroTally s))).tester rfl

theorem quietClosed_xu (s : State) : (quietClosed s).xu = s.xu := (mouldClose_silent (evidenceClose (zeroTally s))).xu

theorem quietClosed_mould (s : State) : (quietClosed s).mould = if watching s = true then countMouldCycle s.mould else s.mould := by
  have same : watching (evidenceClose (zeroTally s)) = watching s := rfl
  unfold quietClosed mouldClose
  rw [same]
  split <;> rfl

theorem quietClosed_zones (s : State) : zonesOf (quietClosed s) = (zonesOf s).map (closeZone s) :=
  (zonesOf_congr (quietClosed_evid s)).trans (zonesOf_evidenceClose s)

theorem quietClosed_paths (s : State) : pathsOf (quietClosed s) = pathsOf s := by
  rw [pathsOf_congr (quietClosed_evid s)]
  unfold pathsOf
  rw [show (evidenceClose s).evid.tables = s.evid.tables.map fun t => { t with zones := t.zones.map (closeZone s) } from rfl]
  cases s.evid.tables <;> rfl

theorem quietClosed_extent (s : State) : SameExtent s (quietClosed s) where
  geometry := by rw [quietClosed_xu]
  area := by rw [quietClosed_xu]
  offset := by rw [quietClosed_mould]; split <;> rfl
  used := by rw [quietClosed_mould]; split <;> rfl
  paths := by rw [quietClosed_paths]
  zones := by rw [quietClosed_zones, List.length_map]

/-! ## A zone at the close (R88 to R94) -/

/-- The three fates of a zone: tabled at a close that is no mould cycle, recorded while blind, and else updated. -/
theorem closeZone_cases (s : State) (z : ZoneEntry) :
    (watching s = false ∧ closeZone s z = z.tabled)
      ∨ (watching s = true ∧ zoneBlind s z = true ∧ closeZone s z = z.recorded (watchNumber s))
      ∨ (watching s = true ∧ zoneBlind s z = false ∧ closeZone s z = z.updated s.evid.part (watchNumber s)) := by
  unfold closeZone
  cases watching s
  · exact .inl ⟨rfl, rfl⟩
  · cases zoneBlind s z
    · exact .inr (.inr ⟨rfl, rfl, rfl⟩)
    · exact .inr (.inl ⟨rfl, rfl, rfl⟩)

/-- What every close does to a zone, whether it is a mould cycle or not. -/
theorem closeZone_recorded (s : State) (z : ZoneEntry) :
    (closeZone s z).path = z.path ∧ (closeZone s z).start = z.start ∧ (closeZone s z).stop = z.stop ∧ (closeZone s z).floor = z.floor
      ∧ (closeZone s z).cavity = z.cavity ∧ (closeZone s z).label = z.label
      ∧ (closeZone s z).lifetime = min 4294967295 (z.lifetime + z.tallyEvents) ∧ (closeZone s z).tallyEvents = 0
      ∧ (closeZone s z).tallyActive = false := by
  rcases closeZone_cases s z with ⟨-, e⟩ | ⟨-, -, e⟩ | ⟨-, -, e⟩ <;> rw [e] <;>
    exact ⟨rfl, rfl, rfl, rfl, rfl, rfl, rfl, rfl, rfl⟩

theorem closeZone_lastActive (s : State) (z : ZoneEntry) :
    (closeZone s z).lastActive =
      if watching s = true ∧ z.tallyActive = true then some (min 4294967295 (s.mould.cyclesWatched + 1)) else z.lastActive := by
  rcases closeZone_cases s z with ⟨h, e⟩ | ⟨h, -, e⟩ | ⟨h, -, e⟩
  · simp [e, h, ZoneEntry.tabled]
  · simp [e, h, ZoneEntry.recorded, watchNumber, satAdd, top32]
  · simp [e, h, ZoneEntry.updated, ZoneEntry.recorded, watchNumber, satAdd, top32]

theorem closeZone_of_watched {z : ZoneEntry} (watched : watching s = true) (hears : zoneBlind s z = false) :
    closeZone s z = z.updated s.evid.part (watchNumber s) := by
  simp [closeZone, watched, hears]

theorem closeZone_of_unwatched {z : ZoneEntry} (h : watching s = false ∨ zoneBlind s z = true) :
    (closeZone s z).run = z.run ∧ (closeZone s z).score = z.score ∧ (closeZone s z).verdict = z.verdict := by
  rcases closeZone_cases s z with ⟨-, e⟩ | ⟨-, -, e⟩ | ⟨watched, hears, -⟩
  · rw [e]
    exact ⟨rfl, rfl, rfl⟩
  · rw [e]
    exact ⟨rfl, rfl, rfl⟩
  · simp [watched, hears] at h

/-! ## The record (R5, R95, R98, R168) -/

/-- The verdict changes of the close are those between the two zone tables (R95). -/
theorem closeChanges_eq (zones : zonesOf t = (zonesOf s).map (closeZone s)) : closeChanges s = verdictChanges s t := by
  rw [closeChanges, ← zones, changesFrom_eq]
  refine List.filterMap_congr fun i _ => ?_
  cases ha : (zonesOf s)[i]? with
  | none => simp [changeAt, ha]
  | some a => cases hb : (zonesOf t)[i]? <;> simp [changeAt, ha, hb]

/-- The latch rises where it was clear and the close latches. -/
theorem latched_iff (latch : t.evid.stopLatch = (s.evid.stopLatch || latches s)) :
    (closeReport s).latched = true ↔ s.evid.stopLatch = false ∧ t.evid.stopLatch = true := by
  rw [latch]
  unfold closeReport
  cases s.evid.stopLatch <;> simp

theorem flagIf_eq {b : Bool} {q : Prop} [Decidable q] (h : b = true ↔ q) (f : Half) : flagIf b f = if q then f else 0 := by
  by_cases k : q
  · rw [if_pos k, h.2 k]
    rfl
  · rw [if_neg k, Bool.eq_false_iff.2 fun e => k (h.1 e)]
    rfl

theorem formRecord_eq (zones : zonesOf t = (zonesOf s).map (closeZone s))
    (latch : t.evid.stopLatch = (s.evid.stopLatch || latches s)) :
    formRecord (closeFacts s s.corr.tallies (closeReport s)) s.xu.accruals = closedRecord s t := by
  have changes : (closeReport s).changes = verdictChanges s t := closeChanges_eq zones
  have rose : (closeReport s).rose = true ↔ ∃ c ∈ verdictChanges s t, c.old.level < c.new.level := by
    rw [← closeChanges_eq zones]
    simp [closeReport]
  unfold formRecord closeFacts closedRecord
  dsimp only
  rw [flagIf_eq rose, flagIf_eq (latched_iff latch), changes]
  rfl

/-- A close latches exactly where a zone changes into CRACKED under stop-on-crack (R98). -/
theorem latches_iff (zones : zonesOf t = (zonesOf s).map (closeZone s)) :
    latches s = true ↔ s.evid.part.stopOnCrack = true ∧ ∃ i : Nat, ¬ CrackedAt s i ∧ CrackedAt t i := by
  have same (i : Nat) : CrackedAt (evidenceClose s) i ↔ CrackedAt t i := by
    rw [CrackedAt, CrackedAt, zones, zonesOf_evidenceClose]
  refine ⟨fun h => ?_, fun ⟨enabled, i, sound, cracked⟩ => ?_⟩
  · obtain ⟨enabled, i, sound, cracked⟩ := crack_of_latches h
    exact ⟨enabled, i, sound, (same i).1 cracked⟩
  · obtain ⟨b, hb, verdict⟩ := Option.map_eq_some_iff.1 cracked
    obtain ⟨a, ha, rfl⟩ := Option.map_eq_some_iff.1 (List.getElem?_map .. ▸ zones ▸ hb)
    have differ : a.verdict ≠ (closeZone s a).verdict := fun e => sound (by simp [CrackedAt, ha, e, verdict])
    have change : changeAt 0 (zonesOf s) ((zonesOf s).map (closeZone s)) i =
        some { zone := 0 + i, label := a.label, old := a.verdict, new := (closeZone s a).verdict } := by
      simp [changeAt, ha, differ]
    have mem : { zone := 0 + i, label := a.label, old := a.verdict, new := (closeZone s a).verdict : VerdictChange } ∈ closeChanges s := by
      rw [closeChanges, changesFrom_eq]
      exact List.mem_filterMap.2 ⟨i, List.mem_range.2 (List.getElem?_eq_some_iff.1 ha).1, change⟩
    exact Bool.and_eq_true_iff.2 ⟨enabled, List.any_eq_true.2 ⟨_, mem, decide_eq_true verdict⟩⟩

/-! ## What is asked of the exchange unit at a close -/

/-- Only the exchange unit, the free values and the mould manager's saves have changed. -/
def OnlyAsked (s t : State) : Prop :=
  { t with
    xu := s.xu, freeNext := s.freeNext
    mould := { t.mould with saveCount := s.mould.saveCount, pendingSave := s.mould.pendingSave } } = s

namespace OnlyAsked

theorem of_unit (h : { t with xu := s.xu, freeNext := s.freeNext } = s) : OnlyAsked s t := by
  have mould : t.mould = s.mould := (congrArg State.mould h :)
  unfold OnlyAsked
  rw [mould]
  exact mould ▸ h

theorem trans (h : OnlyAsked s t) (k : OnlyAsked t u) : OnlyAsked s u :=
  (congrArg (fun t : State => { t with
    xu := s.xu, freeNext := s.freeNext
    mould := { t.mould with saveCount := s.mould.saveCount, pendingSave := s.mould.pendingSave } }) k :).trans h

theorem evid (h : OnlyAsked s t) : t.evid = s.evid := (congrArg State.evid h :)

theorem front (h : OnlyAsked s t) : t.front = s.front := (congrArg State.front h :)

theorem tester (h : OnlyAsked s t) : t.tester = s.tester := (congrArg State.tester h :)

/-- A mirror shows nothing of it. -/
theorem mirrorOf (h : OnlyAsked s t) (g : Word) : Machine.mirrorOf g t = Machine.mirrorOf g s := by
  rw [← h]
  rfl

theorem contextCopy (h : OnlyAsked s t) {saver : SavedBy} {count : Word} : contextCopy saver count t = contextCopy saver count s :=
  contextCopy_congr (congrArg (fun s : State => s.mould.cyclesWatched) h :) h.evid

end OnlyAsked

/-- The queue's jobs, each with its base and without its free value. -/
def bodies (s : State) : List (Addr × JobBody) := s.xu.queue.map fun j => (j.base, j.body)

/-- New jobs, at the base of the state that creates them. -/
def based (s : State) (bs : List JobBody) : List (Addr × JobBody) := bs.map fun b => (baseOf s, b)

theorem bodies_length (s : State) : (bodies s).length = s.xu.queue.length := List.length_map _

theorem bodies_addJob (b : JobBody) (s : State) : bodies (addJob b s) = bodies s ++ based s [b] := by
  simp [bodies, based]

/-! ### The record's place (R169) -/

/-- Only jobs, the carry record and the next journal sequence have changed. -/
structure Journalled (s t : State) : Prop where
  unit : { t.xu with queue := s.xu.queue, issue := s.xu.issue, carry := s.xu.carry, nextJournal := s.xu.nextJournal } = s.xu
  rest : { t with xu := s.xu, freeNext := s.freeNext } = s

theorem Journalled.trans (h : Journalled s t) (k : Journalled t u) : Journalled s u where
  unit := (congrArg (fun x : Exchange =>
    { x with queue := s.xu.queue, issue := s.xu.issue, carry := s.xu.carry, nextJournal := s.xu.nextJournal }) k.unit :).trans h.unit
  rest := (congrArg (fun t : State => { t with xu := s.xu, freeNext := s.freeNext }) k.rest :).trans h.rest

theorem createCycleJob_journalled (r : CycleRecord) (s : State) : Journalled s (createCycleJob r s) := ⟨rfl, rfl⟩

theorem setCarry_journalled (c : Option CycleRecord) (s : State) : Journalled s (setCarry c s) := ⟨rfl, rfl⟩

/-- A record is placed: its jobs, what becomes of the carry record, and what stands. -/
structure Placed (s : State) (r : CycleRecord) (jobs : List JobBody) (t : State) : Prop extends Journalled s t where
  placed : RecordPlaced s r jobs t.xu.carry
  bodies : bodies t = bodies s ++ based s jobs
  nextJournal : t.xu.nextJournal = s.xu.nextJournal.map (· + BitVec.ofNat 32 jobs.length)

theorem recordRoom_iff : recordRoom s = true ↔ RoomAfter s 0 := by
  simp [RoomAfter, recordRoom, journalRoom, queueRoom_iff]

theorem createCycleJob_bodies (r : CycleRecord) (s : State) :
    bodies (createCycleJob r s) = bodies s ++ based s [cycleBody s 0 r] := by
  simp [bodies, based, createCycleJob_queue]

/-- With a job for the carry record in place, the room for one more is the room after one. -/
theorem recordRoom_after_carry {c : CycleRecord} : recordRoom (setCarry none (createCycleJob c s)) = true ↔ RoomAfter s 1 := by
  have queue : (setCarry none (createCycleJob c s)).xu.queue = s.xu.queue ++ [jobOf s 0 (cycleBody s 0 c)] := createCycleJob_queue c s
  have journal : journalRoom (setCarry none (createCycleJob c s)) =
      ringRoom (s.xu.nextJournal.map (· + 1)) s.xu.consumedJournal s.xu.geometry.journalSize := rfl
  simp [RoomAfter, recordRoom, journal, queueRoom_iff, queue]

/-- The record behind the carry record's takes the sequence after it. -/
theorem cycleBody_after_carry {c r : CycleRecord} (h : RoomAfter s 0) :
    cycleBody (setCarry none (createCycleJob c s)) 0 r = cycleBody s 1 r := by
  have next : (setCarry none (createCycleJob c s)).xu.nextJournal = s.xu.nextJournal.map (· + 1) := rfl
  have some_ : s.xu.nextJournal ≠ none := fun e => by simp [RoomAfter, ringRoom, e] at h
  obtain ⟨n, e⟩ := Option.ne_none_iff_exists'.1 some_
  simp only [cycleBody, next, e]
  simp [setCarry, createCycleJob, bumpJournal, addJob]

theorem bodies_none_new (s : State) : bodies s = bodies s ++ based s [] := (List.append_nil _).symm

theorem nextJournal_none_new (s : State) : s.xu.nextJournal = s.xu.nextJournal.map (· + BitVec.ofNat 32 0) := by simp

/-- With no carry record a record gets its job where there is room, and is carried where there is none. -/
theorem placeRecord_placed_alone (r : CycleRecord) (ha : active s = true) (hc : s.xu.carry = none) :
    ∃ jobs, Placed s r jobs (placeRecord r s) := by
  have busy : active s ≠ false := by simp [ha]
  have alone (c : CycleRecord) : s.xu.carry ≠ some c := by simp [hc]
  by_cases room : RoomAfter s 0
  · rw [placeRecord_of_room r ha hc room]
    exact ⟨[cycleBody s 0 r], createCycleJob_journalled r s, ⟨fun h => absurd h busy, fun _ _ _ => ⟨rfl, hc⟩, fun _ _ h => absurd room h,
      fun c _ h => absurd h (alone c), fun c _ h => absurd h (alone c), fun c _ h => absurd h (alone c)⟩, createCycleJob_bodies r s, rfl⟩
  · have e : placeRecord r s = setCarry (some r) s := by simp [placeRecord, ha, hc, mt recordRoom_iff.1 room]
    rw [e]
    exact ⟨[], setCarry_journalled _ s, ⟨fun h => absurd h busy, fun _ _ h => absurd h room, fun _ _ _ => ⟨rfl, rfl⟩,
      fun c _ h => absurd h (alone c), fun c _ h => absurd h (alone c), fun c _ h => absurd h (alone c)⟩, bodies_none_new s,
      nextJournal_none_new s⟩

/-- With a carry record a record is merged into it without room, takes its place with room for one, and follows it with room for both. -/
theorem placeRecord_placed_carried (r : CycleRecord) {c : CycleRecord} (ha : active s = true) (hc : s.xu.carry = some c) :
    ∃ jobs, Placed s r jobs (placeRecord r s) := by
  have busy : active s ≠ false := by simp [ha]
  have carried : s.xu.carry ≠ none := by simp [hc]
  have same {d : CycleRecord} (h : s.xu.carry = some d) : c = d := Option.some.inj (hc.symm.trans h)
  have first := (createCycleJob_journalled c s).trans (setCarry_journalled none _)
  by_cases room : RoomAfter s 0
  · by_cases room' : RoomAfter s 1
    · have e : placeRecord r s = createCycleJob r (setCarry none (createCycleJob c s)) := by
        simp [placeRecord, ha, hc, recordRoom_iff.2 room, recordRoom_after_carry.2 room']
      have queued : bodies (createCycleJob r (setCarry none (createCycleJob c s))) =
          bodies s ++ based s [cycleBody s 0 c, cycleBody s 1 r] := by
        rw [createCycleJob_bodies, cycleBody_after_carry room]
        exact (congrArg (· ++ _) (createCycleJob_bodies c s)).trans (List.append_assoc _ _ _)
      have next : (s.xu.nextJournal.map (· + 1)).map (· + 1) = s.xu.nextJournal.map (· + BitVec.ofNat 32 2) := by
        simp [Option.map_map, Function.comp_def, BitVec.add_assoc]
      rw [e]
      exact ⟨[cycleBody s 0 c, cycleBody s 1 r], first.trans (createCycleJob_journalled r _), ⟨fun h => absurd h busy,
        fun _ h => absurd h carried, fun _ h => absurd h carried, fun _ _ _ h => absurd room h, fun _ _ _ _ h => absurd room' h,
        fun d _ h _ _ => same h ▸ ⟨rfl, rfl⟩⟩, queued, next⟩
    · have e : placeRecord r s = setCarry (some r) (setCarry none (createCycleJob c s)) := by
        simp [placeRecord, ha, hc, recordRoom_iff.2 room, mt recordRoom_after_carry.1 room']
      rw [e]
      exact ⟨[cycleBody s 0 c], first.trans (setCarry_journalled _ _), ⟨fun h => absurd h busy, fun _ h => absurd h carried,
        fun _ h => absurd h carried, fun _ _ _ h => absurd room h, fun d _ h _ _ => same h ▸ ⟨rfl, rfl⟩,
        fun _ _ _ _ h => absurd h room'⟩, createCycleJob_bodies c s, rfl⟩
  · have e : placeRecord r s = setCarry (some (mergeRecord c r)) s := by simp [placeRecord, ha, hc, mt recordRoom_iff.1 room]
    rw [e]
    exact ⟨[], setCarry_journalled _ s, ⟨fun h => absurd h busy, fun _ h => absurd h carried, fun _ h => absurd h carried,
      fun d _ h _ => same h ▸ ⟨rfl, rfl⟩, fun _ _ _ h => absurd h room, fun _ _ _ h => absurd h room⟩, bodies_none_new s,
      nextJournal_none_new s⟩

/-- A record is placed by R169, whatever the area and the carry record. -/
theorem placeRecord_placed (r : CycleRecord) (s : State) : ∃ jobs, Placed s r jobs (placeRecord r s) := by
  cases ha : active s
  · have e : placeRecord r s = s := by simp [placeRecord, ha]
    have idle : active s ≠ true := by simp [ha]
    rw [e]
    exact ⟨[], ⟨rfl, rfl⟩, ⟨fun _ => ⟨rfl, rfl⟩, fun h => absurd h idle, fun h => absurd h idle, fun _ h => absurd h idle,
      fun _ h => absurd h idle, fun _ h => absurd h idle⟩, bodies_none_new s, nextJournal_none_new s⟩
  · cases hc : s.xu.carry with
    | none => exact placeRecord_placed_alone r ha hc
    | some c => exact placeRecord_placed_carried r ha hc

/-! ### The mirror and the CLOSE scan (R154, R164) -/

/-- The mirror that a close asks for, where there is room. -/
def mirrorJobs (s : State) : List JobBody :=
  if active s = true ∧ s.xu.queue.length < 16 then [.mirror (mirrorOf (s.xu.mirrorGeneration + 1) s)] else []

/-- A mirror and a CLOSE scan are asked for while ACTIVE. -/
def closeAsked (s : State) : State := if active s then askScan .close (requestMirror s) else s

theorem exchangeClose_eq (f : CloseFacts) (s : State) :
    exchangeClose f s = closeAsked (placeRecord (formRecord f s.xu.accruals) (unaccrued s)) := rfl

theorem requestMirror_bodies (s : State) : bodies (requestMirror s) = bodies s ++ based s (mirrorJobs s) := by
  by_cases room : active s = true ∧ s.xu.queue.length < 16
  · rw [requestMirror_of_room room.1 (queueRoom_iff.2 room.2), mirrorJobs, if_pos room, bodies_addJob]
    rfl
  · have full : active s = false ∨ queueRoom s = false := by
      rw [← Bool.and_eq_false_iff, Bool.eq_false_iff, ne_eq, Bool.and_eq_true_iff, queueRoom_iff]
      exact room
    rw [requestMirror_of_no_room full, mirrorJobs, if_neg room]
    exact (List.append_nil _).symm

theorem requestMirror_generation (s : State) :
    (requestMirror s).xu.mirrorGeneration = s.xu.mirrorGeneration + BitVec.ofNat 32 (mirrorJobs s).length := by
  unfold requestMirror mirrorJobs
  by_cases room : active s = true ∧ s.xu.queue.length < 16
  · rw [if_pos room, if_pos (Bool.and_eq_true_iff.2 ⟨room.1, queueRoom_iff.2 room.2⟩)]
    rfl
  · rw [if_neg room, if_neg (by rwa [Bool.and_eq_true_iff, queueRoom_iff])]
    exact (BitVec.add_zero _).symm

/-- Only jobs, the mirror generation and the scan unit have changed. -/
structure Mirrored (s t : State) : Prop where
  unit : { t.xu with queue := s.xu.queue, issue := s.xu.issue, mirrorGeneration := s.xu.mirrorGeneration, scan := s.xu.scan } = s.xu
  rest : { t with xu := s.xu, freeNext := s.freeNext } = s

theorem requestMirror_mirrored (s : State) : Mirrored s (requestMirror s) ∧ (requestMirror s).xu.scan = s.xu.scan := by
  unfold requestMirror
  split <;> exact ⟨⟨rfl, rfl⟩, rfl⟩

theorem askScan_mirrored (k : ScanKind) (h : Mirrored s t) : Mirrored s (askScan k t) := by
  unfold askScan startScan
  split <;> exact ⟨h.unit, h.rest⟩

theorem askScan_bodies (k : ScanKind) (s : State) : bodies (askScan k s) = bodies s := by
  unfold askScan
  split <;> rfl

theorem askScan_generation (k : ScanKind) (s : State) : (askScan k s).xu.mirrorGeneration = s.xu.mirrorGeneration := by
  unfold askScan
  split <;> rfl

theorem raiseMark_close (m : Option ScanKind) : raiseMark m .close = some .close := by
  unfold raiseMark
  split <;> trivial

/-- What a CLOSE scan and a mirror asked for leave of the scan unit (R153, R154). -/
theorem closeAsked_scan (s : State) :
    (active s = false → (closeAsked s).xu.scan = s.xu.scan)
      ∧ (active s = true → s.xu.scan.phase = .idle → (closeAsked s).xu.scan.phase = .header ∧ (closeAsked s).xu.scan.kind = .close)
      ∧ (active s = true → s.xu.scan.phase ≠ .idle → (closeAsked s).xu.scan = { s.xu.scan with mark := some .close }) := by
  have scan := (requestMirror_mirrored s).2
  unfold closeAsked
  refine ⟨fun ha => by rw [ha]; rfl, fun ha idle => ?_, fun ha busy => ?_⟩
  · rw [if_pos ha, askScan_of_idle _ (by rw [scan, idle])]
    exact ⟨rfl, rfl⟩
  · rw [if_pos ha, askScan_of_busy _ (by rwa [scan])]
    simp only [State.onXu_xu, scan, raiseMark_close]

theorem closeAsked_mirrored (s : State) : Mirrored s (closeAsked s) := by
  unfold closeAsked
  split
  · exact askScan_mirrored _ (requestMirror_mirrored s).1
  · exact ⟨rfl, rfl⟩

theorem mirrorJobs_of_not_active (ha : active s = false) : mirrorJobs s = [] := by simp [mirrorJobs, ha]

theorem closeAsked_bodies (s : State) : bodies (closeAsked s) = bodies s ++ based s (mirrorJobs s) := by
  unfold closeAsked
  split
  · rw [askScan_bodies, requestMirror_bodies]
  next ha =>
    rw [mirrorJobs_of_not_active (Bool.eq_false_iff.2 ha)]
    exact bodies_none_new s

theorem closeAsked_generation (s : State) :
    (closeAsked s).xu.mirrorGeneration = s.xu.mirrorGeneration + BitVec.ofNat 32 (mirrorJobs s).length := by
  unfold closeAsked
  split
  · rw [askScan_generation, requestMirror_generation]
  next ha =>
    rw [mirrorJobs_of_not_active (Bool.eq_false_iff.2 ha)]
    exact (BitVec.add_zero _).symm

/-! ### The checkpoint (R125, R126) -/

/-- A checkpoint is pending, in a mould state in which it is offered. -/
abbrev CheckpointPending (s : State) : Prop := s.mould.pendingSave = some .checkpoint ∧ s.mould.state ≠ .dismounting

/-- The save that a close offers, where it is created. -/
def checkpointJobs (s : State) : List JobBody :=
  if CheckpointPending s ∧ active s = true ∧ mountingFits s = true ∧ s.xu.queue.length < 16 then
    [.save (mountingContext s) (contextCopy .checkpoint (s.mould.saveCount + 1) s)]
  else []

/-- A checkpoint offered: its save is created, or stays pending. -/
structure CheckpointOffered (s t : State) : Prop where
  bodies : bodies t = bodies s ++ based s (checkpointJobs s)
  unit : { t.xu with queue := s.xu.queue, issue := s.xu.issue } = s.xu
  mould : t.mould = { s.mould with
    saveCount := s.mould.saveCount + BitVec.ofNat 32 (checkpointJobs s).length
    pendingSave :=
      if CheckpointPending s then (if checkpointJobs s = [] then some .checkpoint else none) else s.mould.pendingSave }
  rest : { t with xu := s.xu, freeNext := s.freeNext, mould := s.mould } = s

theorem checkpointHeld_offered (pending : CheckpointPending s)
    (h : ¬ (active s = true ∧ mountingFits s = true ∧ s.xu.queue.length < 16)) : CheckpointOffered s (holdSave .checkpoint s) := by
  have none_ : checkpointJobs s = [] := if_neg fun k => h k.2
  refine ⟨?_, rfl, ?_, rfl⟩
  · rw [none_]
    exact bodies_none_new s
  · rw [none_, if_pos pending, if_pos rfl]
    exact congrArg (fun n => { s.mould with saveCount := n, pendingSave := some .checkpoint }) (BitVec.add_zero _).symm

theorem checkpointCreated_offered (pending : CheckpointPending s)
    (h : active s = true ∧ mountingFits s = true ∧ s.xu.queue.length < 16) : CheckpointOffered s (createSave .checkpoint s) := by
  have one : checkpointJobs s = [.save (mountingContext s) (contextCopy .checkpoint (s.mould.saveCount + 1) s)] := if_pos ⟨pending, h⟩
  refine ⟨?_, rfl, ?_, rfl⟩
  · rw [one, bodies, createSave_queue, List.map_append]
    rfl
  · rw [one, if_pos pending, if_neg (List.cons_ne_nil _ _)]
    rfl

theorem offerCheckpoint_of_pending (h : CheckpointPending s) : offerCheckpoint s = offerSave .checkpoint s := if_pos h

theorem offerCheckpoint_offered (s : State) : CheckpointOffered s (offerCheckpoint s) := by
  by_cases pending : CheckpointPending s
  · rw [offerCheckpoint_of_pending pending]
    by_cases room : active s = true ∧ mountingFits s = true ∧ s.xu.queue.length < 16
    · have created : offerSave .checkpoint s = createSave .checkpoint s := by
        simp only [offerSave, saveAnswer_of_created room.1 room.2.1 (queueRoom_iff.2 room.2.2)]
      exact created ▸ checkpointCreated_offered pending room
    · have held_ : offerSave .checkpoint s = holdSave .checkpoint s := by
        by_cases fits : active s = true ∧ mountingFits s = true
        · have full : queueRoom s = false := Bool.eq_false_iff.2 fun k => room ⟨fits.1, fits.2, queueRoom_iff.1 k⟩
          simp only [offerSave, saveAnswer_of_full fits.1 fits.2 full]
        · rw [← Bool.and_eq_true_iff, ← ne_eq, ← Bool.eq_false_iff, Bool.and_eq_false_iff] at fits
          simp only [offerSave, saveAnswer_of_not_active fits]
      exact held_ ▸ checkpointHeld_offered pending room
  · have none_ : checkpointJobs s = [] := if_neg fun k => pending k.1
    have e : offerCheckpoint s = s := if_neg pending
    rw [e]
    refine ⟨?_, rfl, ?_, rfl⟩
    · rw [none_]
      exact bodies_none_new s
    · rw [none_, if_neg pending]
      exact congrArg (fun n => { s.mould with saveCount := n }) (BitVec.add_zero _).symm

/-- After the offer no other save is pending than before. -/
theorem CheckpointOffered.offerPending (h : CheckpointOffered s t) (dismount : s.mould.pendingSave ≠ some .dismount)
    (unplanned : s.mould.pendingSave ≠ some .unplanned) : offerPending t = t := by
  have saves : t.mould.pendingSave = s.mould.pendingSave ∨ t.mould.pendingSave = some .checkpoint ∨ t.mould.pendingSave = none := by
    rw [h.mould]
    dsimp only
    split
    · split
      · exact .inr (.inl rfl)
      · exact .inr (.inr rfl)
    · exact .inl rfl
  rcases saves with e | e | e
  · exact offerPending_of_none (e ▸ dismount) (e ▸ unplanned)
  · exact offerPending_of_none (by rw [e]; nofun) (by rw [e]; nofun)
  · exact offerPending_of_none (by rw [e]; nofun) (by rw [e]; nofun)

theorem CheckpointOffered.onlyAsked (h : CheckpointOffered s t) : OnlyAsked s t := by
  have mould : { t.mould with saveCount := s.mould.saveCount, pendingSave := s.mould.pendingSave } = s.mould := by rw [h.mould]
  unfold OnlyAsked
  rw [mould]
  exact h.rest

/-- A close offers a checkpoint that falls due at it, or that was pending before. -/
theorem checkpointPending_quietClosed (s : State) : CheckpointPending (quietClosed s) ↔ CheckpointWanted s := by
  rw [CheckpointPending, CheckpointWanted, CheckpointDue, quietClosed_mould]
  cases watched : watching s with
  | false => simp
  | true =>
    have staying : s.mould.state ≠ .dismounting := fun e => by simp [watching, e] at watched
    by_cases due : 0 < s.mould.checkpointInterval ∧ s.mould.checkpointInterval ≤ s.mould.checkpoint + 1
    · simp [countMouldCycle, checkpointDue, due, staying]
    · simp [countMouldCycle, checkpointDue, due, staying]

/-- The mould manager's counts at a close (R124, R125). -/
theorem quietClosed_counts (s : State) :
    { (quietClosed s).mould with pendingSave := s.mould.pendingSave } =
      { s.mould with
        cyclesWatched := if watching s = true then min 4294967295 (s.mould.cyclesWatched + 1) else s.mould.cyclesWatched
        checkpoint := if watching s = false then s.mould.checkpoint
          else if s.mould.checkpointInterval = 0 ∨ CheckpointDue s then 0 else s.mould.checkpoint + 1 } := by
  rw [quietClosed_mould]
  by_cases watched : watching s = true
  · simp [countMouldCycle, checkpointDue, CheckpointDue, watched, satAdd, top32]
  · simp [watched]

/-- A close at which no checkpoint is offered leaves the pending save. -/
theorem quietClosed_pendingSave (h : ¬ CheckpointWanted s) : (quietClosed s).mould.pendingSave = s.mould.pendingSave := by
  rw [quietClosed_mould]
  split
  next watched =>
    have early : checkpointDue s.mould = false := by
      rw [checkpointDue, Bool.eq_false_iff, ne_eq, Bool.and_eq_true_iff, decide_eq_true_iff, decide_eq_true_iff]
      exact fun due => h (.inl ⟨watched, due⟩)
    simp [countMouldCycle, early]
  · rfl

/-! ## The quiet close -/

/-- What a quiet close does behind the blocks' part: the record, the mirror, the CLOSE scan and the checkpoint, in this order. -/
structure QuietClose (s t : State) (jobs mirrors saves : List JobBody) : Prop where
  asked : OnlyAsked (quietClosed s) t
  placed : RecordPlaced s (closedRecord s t) jobs t.xu.carry
  mirror : mirrors =
    if active s = true ∧ s.xu.queue.length + jobs.length < 16 then [.mirror (mirrorOf (s.xu.mirrorGeneration + 1) t)] else []
  save : saves =
    if CheckpointWanted s ∧ active s = true ∧ mountingFits s = true ∧ s.xu.queue.length + jobs.length + mirrors.length < 16 then
      [.save (mountingContext s) (contextCopy .checkpoint (s.mould.saveCount + 1) t)]
    else []
  bodies : bodies t = bodies s ++ based s (jobs ++ mirrors ++ saves)
  nextJournal : t.xu.nextJournal = s.xu.nextJournal.map (· + BitVec.ofNat 32 jobs.length)
  generation : t.xu.mirrorGeneration = s.xu.mirrorGeneration + BitVec.ofNat 32 mirrors.length
  accruals : t.xu.accruals = noAccruals
  inactive : active s = false → t.xu.scan = s.xu.scan
  starts : active s = true → s.xu.scan.phase = .idle → t.xu.scan.phase = .header ∧ t.xu.scan.kind = .close
  marks : active s = true → s.xu.scan.phase ≠ .idle → t.xu.scan = { s.xu.scan with mark := some .close }
  mould : t.mould = { s.mould with
    cyclesWatched := if watching s = true then min 4294967295 (s.mould.cyclesWatched + 1) else s.mould.cyclesWatched
    checkpoint := if watching s = false then s.mould.checkpoint
      else if s.mould.checkpointInterval = 0 ∨ CheckpointDue s then 0 else s.mould.checkpoint + 1
    saveCount := s.mould.saveCount + BitVec.ofNat 32 saves.length
    pendingSave := if CheckpointWanted s then (if saves = [] then some .checkpoint else none) else s.mould.pendingSave }

theorem queue_length_of_bodies {bs : List JobBody} (h : bodies t = bodies s ++ based s bs) :
    t.xu.queue.length = s.xu.queue.length + bs.length := by
  rw [← bodies_length t, h, List.length_append, bodies_length, based, List.length_map]

theorem cycleClose_of_quiet (events : s.corr.events = []) (tests : s.tester = []) (quiet : NoHit s)
    (dismount : s.mould.pendingSave ≠ some .dismount) (unplanned : s.mould.pendingSave ≠ some .unplanned) :
    cycleClose s =
      offerCheckpoint (closeAsked (placeRecord (formRecord (closeFacts s s.corr.tallies (closeReport s)) s.xu.accruals)
        (unaccrued (quietClosed s)))) := by
  rw [cycleClose_stages, closedBlocks_of_quiet events tests quiet, closingFacts_of_quiet events tests quiet, exchangeClose_eq,
    quietClosed_xu]
  generalize formRecord _ _ = r
  obtain ⟨jobs, placed⟩ := placeRecord_placed r (unaccrued (quietClosed s))
  have mould : (closeAsked (placeRecord r (unaccrued (quietClosed s)))).mould = (quietClosed s).mould :=
    (congrArg State.mould (closeAsked_mirrored _).rest :).trans (congrArg State.mould placed.rest :)
  have saves : (quietClosed s).mould.pendingSave = some .checkpoint ∨ (quietClosed s).mould.pendingSave = s.mould.pendingSave := by
    rw [quietClosed_mould]
    split
    · unfold countMouldCycle
      dsimp only
      split
      · exact .inl rfl
      · exact .inr rfl
    · exact .inr rfl
  refine (offerCheckpoint_offered _).offerPending ?_ ?_
  · rw [mould]
    exact saves.elim (fun e => by rw [e]; nofun) fun e => e ▸ dismount
  · rw [mould]
    exact saves.elim (fun e => by rw [e]; nofun) fun e => e ▸ unplanned

/-- The exchange unit behind a quiet close's record: the accruals are gone, and only the journal has moved on. -/
theorem Placed.xu_eq {r : CycleRecord} {jobs : List JobBody} (placed : Placed (unaccrued (quietClosed s)) r jobs t) :
    { t.xu with
      queue := s.xu.queue, issue := s.xu.issue, carry := s.xu.carry, nextJournal := s.xu.nextJournal } =
      { s.xu with accruals := noAccruals } := by
  have unaccrued_xu : (unaccrued (quietClosed s)).xu = { s.xu with accruals := noAccruals } := by
    rw [unaccrued, State.onXu_xu, quietClosed_xu]
  have unit := placed.unit
  rw [unaccrued_xu] at unit
  exact unit

/-- The record of a quiet close is placed as the state before it says. -/
theorem recordPlaced_unaccrued {r : CycleRecord} {jobs : List JobBody} {carry : Option CycleRecord}
    (h : RecordPlaced (unaccrued (quietClosed s)) r jobs carry) : RecordPlaced s r jobs carry := by
  have unaccrued_xu : (unaccrued (quietClosed s)).xu = { s.xu with accruals := noAccruals } := by
    rw [unaccrued, State.onXu_xu, quietClosed_xu]
  generalize unaccrued (quietClosed s) = u at *
  simp only [RecordPlaced, RoomAfter, cycleBody, active, unaccrued_xu] at h
  exact h

/-- What the exchange unit's part of a quiet close leaves for the checkpoint's offer. -/
structure QuietAsked (s t : State) (jobs mirrors : List JobBody) : Prop where
  asked : OnlyAsked (quietClosed s) t
  mould : t.mould = (quietClosed s).mould
  bodies : bodies t = bodies s ++ based s (jobs ++ mirrors)
  unit : { t.xu with
      queue := s.xu.queue, issue := s.xu.issue, carry := s.xu.carry, nextJournal := s.xu.nextJournal
      mirrorGeneration := s.xu.mirrorGeneration, scan := s.xu.scan } =
    { s.xu with accruals := noAccruals }

theorem based_congr (h : t.xu.baseH = s.xu.baseH) (k : t.xu.baseL = s.xu.baseL) (bs : List JobBody) : based t bs = based s bs := by
  rw [based, based, baseOf, baseOf, h, k]

theorem based_append (s : State) (bs cs : List JobBody) : based s (bs ++ cs) = based s bs ++ based s cs := List.map_append

theorem unaccrued_onlyAsked (s : State) : OnlyAsked s (unaccrued s) := .of_unit rfl

theorem closeAsked_quietAsked {r : CycleRecord} {jobs : List JobBody} (placed : Placed (unaccrued (quietClosed s)) r jobs t) :
    QuietAsked s (closeAsked t) jobs (mirrorJobs t) where
  asked := ((unaccrued_onlyAsked _).trans (.of_unit placed.rest)).trans (.of_unit (closeAsked_mirrored t).rest)
  mould := (congrArg State.mould (closeAsked_mirrored t).rest :).trans (congrArg State.mould placed.rest :)
  bodies := by
    have first : Machine.bodies (unaccrued (quietClosed s)) = Machine.bodies s :=
      (congrArg (fun x : Exchange => x.queue.map fun j : Job => (j.base, j.body)) (quietClosed_xu s) :)
    have base : based (unaccrued (quietClosed s)) jobs = based s jobs :=
      based_congr (congrArg Exchange.baseH (quietClosed_xu s) :) (congrArg Exchange.baseL (quietClosed_xu s) :) _
    have base' : based t (mirrorJobs t) = based s (mirrorJobs t) :=
      based_congr (congrArg Exchange.baseH placed.xu_eq :) (congrArg Exchange.baseL placed.xu_eq :) _
    rw [closeAsked_bodies, placed.bodies, first, base, base', based_append, List.append_assoc]
  unit := (congrArg (fun x : Exchange =>
    { x with queue := s.xu.queue, issue := s.xu.issue, carry := s.xu.carry, nextJournal := s.xu.nextJournal
             mirrorGeneration := s.xu.mirrorGeneration, scan := s.xu.scan }) (closeAsked_mirrored t).unit :).trans
    (congrArg (fun x : Exchange => { x with mirrorGeneration := s.xu.mirrorGeneration, scan := s.xu.scan }) placed.xu_eq :)

theorem QuietAsked.extent {jobs mirrors : List JobBody} (h : QuietAsked s t jobs mirrors) : SameExtent s t where
  geometry := (congrArg Exchange.geometry h.unit :)
  area := (congrArg Exchange.area h.unit :)
  offset := (congrArg MouldManager.offset h.mould :).trans (quietClosed_extent s).offset
  used := (congrArg MouldManager.used h.mould :).trans (quietClosed_extent s).used
  paths := (congrArg List.length (pathsOf_congr h.asked.evid) :).trans (quietClosed_extent s).paths
  zones := (congrArg List.length (zonesOf_congr h.asked.evid) :).trans (quietClosed_extent s).zones

theorem QuietAsked.checkpointPending {jobs mirrors : List JobBody} (h : QuietAsked s t jobs mirrors) :
    CheckpointPending t ↔ CheckpointWanted s := by
  rw [CheckpointPending, h.mould]
  exact checkpointPending_quietClosed s

/-- The mirror shows the closed cycle as the close leaves it (R164). -/
theorem mirrorJobs_of_quiet {r : CycleRecord} {jobs : List JobBody} (placed : Placed (unaccrued (quietClosed s)) r jobs t)
    (shown : OnlyAsked t u) :
    mirrorJobs t =
      if active s = true ∧ s.xu.queue.length + jobs.length < 16 then [.mirror (mirrorOf (s.xu.mirrorGeneration + 1) u)] else [] := by
  have active_ : active t = active s := active_congr (congrArg Exchange.area placed.xu_eq :)
  have generation : t.xu.mirrorGeneration = s.xu.mirrorGeneration := (congrArg Exchange.mirrorGeneration placed.xu_eq :)
  have before : (unaccrued (quietClosed s)).xu.queue.length = s.xu.queue.length :=
    (congrArg (fun x : Exchange => x.queue.length) (quietClosed_xu s) :)
  rw [mirrorJobs, active_, generation, queue_length_of_bodies placed.bodies, before, shown.mirrorOf]

/-- The save that a quiet close offers, and its fate (R125, R126). -/
theorem checkpointJobs_of_quiet {jobs mirrors : List JobBody} (h : QuietAsked s t jobs mirrors) (shown : OnlyAsked t u) :
    checkpointJobs t =
      if CheckpointWanted s ∧ active s = true ∧ mountingFits s = true ∧ s.xu.queue.length + jobs.length + mirrors.length < 16 then
        [.save (mountingContext s) (contextCopy .checkpoint (s.mould.saveCount + 1) u)]
      else [] := by
  have wanted := h.checkpointPending
  have count : t.mould.saveCount = s.mould.saveCount := by
    rw [h.mould, quietClosed_mould]
    split <;> rfl
  have length := queue_length_of_bodies h.bodies
  rw [List.length_append, ← Nat.add_assoc] at length
  simp only [checkpointJobs, wanted, h.extent.active, h.extent.mountingFits, h.extent.mountingContext, length, count, shown.contextCopy]

/-- The mould manager's record after a quiet close (R124 to R126). -/
theorem mould_of_quiet {jobs mirrors : List JobBody} (h : QuietAsked s t jobs mirrors) (offered : CheckpointOffered t u) :
    u.mould = { s.mould with
      cyclesWatched := if watching s = true then min 4294967295 (s.mould.cyclesWatched + 1) else s.mould.cyclesWatched
      checkpoint := if watching s = false then s.mould.checkpoint
        else if s.mould.checkpointInterval = 0 ∨ CheckpointDue s then 0 else s.mould.checkpoint + 1
      saveCount := s.mould.saveCount + BitVec.ofNat 32 (checkpointJobs t).length
      pendingSave := if CheckpointWanted s then (if checkpointJobs t = [] then some .checkpoint else none) else s.mould.pendingSave } := by
  have pending : (if CheckpointPending t then (if checkpointJobs t = [] then some .checkpoint else none) else t.mould.pendingSave) =
      if CheckpointWanted s then (if checkpointJobs t = [] then some .checkpoint else none) else s.mould.pendingSave := by
    by_cases k : CheckpointWanted s
    · rw [if_pos k, if_pos (h.checkpointPending.2 k)]
    · rw [if_neg k, if_neg (mt h.checkpointPending.1 k), h.mould, quietClosed_pendingSave k]
  have count : (quietClosed s).mould.saveCount = s.mould.saveCount := (congrArg MouldManager.saveCount (quietClosed_counts s) :)
  have counts := quietClosed_counts s
  rw [offered.mould, pending, h.mould, count]
  exact (congrArg (fun m : MouldManager => { m with
    saveCount := s.mould.saveCount + BitVec.ofNat 32 (checkpointJobs t).length
    pendingSave := if CheckpointWanted s then (if checkpointJobs t = [] then some .checkpoint else none) else s.mould.pendingSave })
    counts :)

theorem quietClose_of_placed {r : CycleRecord} {jobs : List JobBody} (placed : Placed (unaccrued (quietClosed s)) r jobs t)
    (record : r = closedRecord s (offerCheckpoint (closeAsked t))) :
    QuietClose s (offerCheckpoint (closeAsked t)) jobs (mirrorJobs t) (checkpointJobs (closeAsked t)) := by
  have asked := closeAsked_quietAsked placed
  have offered := offerCheckpoint_offered (closeAsked t)
  have generation := closeAsked_generation t
  have mirrored := closeAsked_mirrored t
  obtain ⟨inactive, starts, marks⟩ := closeAsked_scan t
  have xu := placed.xu_eq
  have area : active t = active s := active_congr (congrArg Exchange.area xu :)
  have scan : t.xu.scan = s.xu.scan := (congrArg Exchange.scan xu :)
  have journal : (unaccrued (quietClosed s)).xu.nextJournal = s.xu.nextJournal := (congrArg Exchange.nextJournal (quietClosed_xu s) :)
  have mirrors := mirrorJobs_of_quiet placed ((OnlyAsked.of_unit mirrored.rest).trans offered.onlyAsked)
  rw [area, scan] at inactive starts marks
  generalize closeAsked t = d at *
  have saves := checkpointJobs_of_quiet asked offered.onlyAsked
  have mould := mould_of_quiet asked offered
  generalize offerCheckpoint d = u at *
  have unit {α : Type} (f : Exchange → α) (h : ∀ x q i, f { x with queue := q, issue := i } = f x) : f u.xu = f d.xu :=
    (h _ _ _).symm.trans (congrArg f offered.unit)
  have carry : u.xu.carry = t.xu.carry := (unit Exchange.carry fun _ _ _ => rfl).trans (congrArg Exchange.carry mirrored.unit :)
  have nextJournal : u.xu.nextJournal = t.xu.nextJournal :=
    (unit Exchange.nextJournal fun _ _ _ => rfl).trans (congrArg Exchange.nextJournal mirrored.unit :)
  have scanned : u.xu.scan = d.xu.scan := unit Exchange.scan fun _ _ _ => rfl
  exact {
    asked := asked.asked.trans offered.onlyAsked
    placed := by
      rw [carry]
      exact record ▸ recordPlaced_unaccrued placed.placed
    mirror := mirrors
    save := saves
    bodies := by
      have base : based d (checkpointJobs d) = based s (checkpointJobs d) :=
        based_congr (congrArg Exchange.baseH asked.unit :) (congrArg Exchange.baseL asked.unit :) _
      rw [offered.bodies, asked.bodies, base, based_append s (jobs ++ _), List.append_assoc]
    nextJournal := by rw [nextJournal, placed.nextJournal, journal]
    generation := by
      rw [unit Exchange.mirrorGeneration fun _ _ _ => rfl, generation]
      exact (congrArg (fun x : Exchange => x.mirrorGeneration + _) xu :)
    accruals := (unit Exchange.accruals fun _ _ _ => rfl).trans (congrArg Exchange.accruals asked.unit :)
    inactive := scanned ▸ inactive
    starts := scanned ▸ starts
    marks := scanned ▸ marks
    mould := mould }

/-- A quiet close taken through every block. -/
theorem cycleClose_quietClose (events : s.corr.events = []) (tests : s.tester = []) (quiet : NoHit s)
    (dismount : s.mould.pendingSave ≠ some .dismount) (unplanned : s.mould.pendingSave ≠ some .unplanned) :
    ∃ jobs mirrors saves, QuietClose s (cycleClose s) jobs mirrors saves := by
  have close := cycleClose_of_quiet events tests quiet dismount unplanned
  obtain ⟨jobs, placed⟩ :=
    placeRecord_placed (formRecord (closeFacts s s.corr.tallies (closeReport s)) s.xu.accruals) (unaccrued (quietClosed s))
  have shown := (closeAsked_quietAsked placed).asked.trans (offerCheckpoint_offered _).onlyAsked
  refine ⟨jobs, _, _, close ▸ quietClose_of_placed placed (formRecord_eq ?_ ?_)⟩
  · rw [zonesOf_congr shown.evid, quietClosed_zones]
  · rw [shown.evid, quietClosed_evid, evidenceClose_latch]

section

variable {jobs mirrors saves : List JobBody} (h : QuietClose s t jobs mirrors saves)

include h

theorem QuietClose.zones : zonesOf t = (zonesOf s).map (closeZone s) := by rw [zonesOf_congr h.asked.evid, quietClosed_zones]

theorem QuietClose.part : t.evid.part = s.evid.part := by
  rw [h.asked.evid, quietClosed_evid]
  rfl

theorem QuietClose.latch : t.evid.stopLatch = true ↔
    s.evid.stopLatch = true ∨ (s.evid.part.stopOnCrack = true ∧ ∃ i : Nat, ¬ CrackedAt s i ∧ CrackedAt t i) := by
  rw [h.asked.evid, quietClosed_evid, evidenceClose_latch, Bool.or_eq_true_iff, latches_iff h.zones]

/-- Each zone at a quiet close. -/
theorem QuietClose.zone {i : Nat} {z : ZoneEntry} (hz : (zonesOf s)[i]? = some z) : (zonesOf t)[i]? = some (closeZone s z) := by
  rw [h.zones, List.getElem?_map, hz]
  rfl

end

/-- Settles O9: with no event, hit or test the blocks before the exchange unit change only zones, latch, counts and timer, and what is
asked of the exchange unit joins its queue in the order record, mirror, checkpoint. -/
theorem closeUpdatesZones : Obligations.CloseUpdatesZones := by
  intro s hh due sel events quiet tests dismount unplanned
  have close : deliverEdge .cyc (s.lines.at .cyc).raw (filteredTo .cyc s) = cycleClose (filteredTo .cyc s) :=
    cycEdge_of_selected (s := filteredTo .cyc s) sel
  rw [exec_lineFilterExpiry_of_due .cyc hh due, close]
  obtain ⟨jobs, mirrors, saves, q⟩ := cycleClose_quietClose (s := filteredTo .cyc s) events tests quiet dismount unplanned
  have keeps := cycleClose_keeps (filteredTo .cyc s)
  generalize cycleClose (filteredTo .cyc s) = t at *
  have paths : pathsOf t = pathsOf s := (pathsOf_congr q.asked.evid).trans (quietClosed_paths (filteredTo .cyc s))
  have count : (zonesOf t).length = (zonesOf s).length := (congrArg List.length q.zones).trans (List.length_map _)
  refine ⟨t, jobs, mirrors, saves, rfl, count, paths, q.part, fun i z hz => ?_, q.latch, q.placed, q.mirror, q.save, ?_, q.nextJournal,
    q.generation, q.accruals, q.inactive, q.starts, q.marks, q.mould, q.asked.front.trans (quietClosed_front _),
    q.asked.tester.trans ((quietClosed_tester _).trans tests), keeps.lines, keeps.outside⟩
  · obtain ⟨path, start, stop, floor, cavity, label, lifetime, events_, active_⟩ := closeZone_recorded (filteredTo .cyc s) z
    refine ⟨closeZone (filteredTo .cyc s) z, q.zone hz, path, start, stop, floor, cavity, label, lifetime, events_, active_,
      closeZone_lastActive (filteredTo .cyc s) z, fun ⟨watched, hears⟩ => ?_, closeZone_of_unwatched (s := filteredTo .cyc s)⟩
    rw [closeZone_of_watched (s := filteredTo .cyc s) watched hears]
    exact ⟨rfl, rfl, rfl⟩
  · exact q.bodies

end Sys2Proof.Machine
end
